-- ==== Sys2Proof/Word.lean ====
section
/-! DEFINITION. The bit-vector types of MMCORE: what the spec treats as bits and nothing else.
Operand values (the `x`, `p`, `f` files) are unsigned integers of the spec (R7, R8) and are `Nat`. -/

namespace Sys2Proof

/-- A 32-bit bus word; also the width of every control and status register (R6 `XLEN_CSR`, R28, R68). -/
abbrev Word := BitVec 32

/-- A register field of the command word: four bits, every value names a register (R21, R91). -/
abbrev Reg := BitVec 4

/-- The `mode` field of ISGEN and GENFIND, bits 25:24 of the command word (R91, R98). -/
abbrev Mode := BitVec 2

end Sys2Proof
end

