-- ==== Sys2Proof/Machine/Arith.lean ====
section
/-! DEFINITION. The arithmetic of the six units on unsigned integers (R8, R120): each function is the mathematical
value or the reference loop its rule gives. None of them knows the state. -/

namespace Sys2Proof.Machine

/-- `bitlen(v)`: the number of significant bits (R8). -/
def bitlen (v : Nat) : Nat := if v = 0 then 0 else v.log2 + 1

/-- The loop of R144 over bits `i - 1` down to 0 of the exponent: square, then multiply if the bit is 1. -/
def powModLoop (b n e : Nat) : Nat → Nat → Nat
  | 0, acc => acc
  | i + 1, acc =>
    let sq := acc * acc % n
    powModLoop b n e i (if e.testBit i then sq * b % n else sq)

/-- `(base ^ e) mod n` by binary square-and-multiply, the base reduced first (R140, R144). -/
def powMod (base e n : Nat) : Nat := powModLoop (base % n) n e (bitlen e) (1 % n)

/-- The loop of R152: `r0 - q * r1` is `r0 mod r1`. The first argument bounds the passes; the remainders strictly
decrease, so a bound above the first `r1` is never reached. -/
def euclidLoop : Nat → Nat → Nat → Int → Int → Nat × Int
  | 0, r0, _, t0, _ => (r0, t0)
  | k + 1, r0, r1, t0, t1 =>
    if r1 = 0 then (r0, t0) else euclidLoop k r1 (r0 % r1) t1 (t0 - ((r0 / r1 : Nat) : Int) * t1)

/-- The extended Euclidean algorithm of R152 on `a` and `m`: the pair of `gcd(a, m)` and the coefficient `t0`. -/
def euclid (a m : Nat) : Nat × Int := euclidLoop (m + 1) m (a % m) 0 1

/-- The last line of R152: `t0 mod m`, the least non-negative residue; the inverse of `a` where `gcd(a, m) = 1`. -/
def invMod (a m : Nat) : Nat := ((euclid a m).2 % (m : Int)).toNat

/-- `Rinv(n)` for `R = 2^w` and odd `n` (R123). -/
def rInv (w n : Nat) : Nat := invMod (2 ^ w % n) n

/-- The Montgomery product (R123). -/
def montProd (w a b n : Nat) : Nat := a * b * rInv w n % n

/-- The body of the reference loop of R126 for one bit of `a`. -/
def montPass (b n s : Nat) (bit : Bool) : Nat :=
  let t := s + (if bit then b else 0)
  (if t % 2 = 1 then t + n else t) / 2

/-- The reference loop of R126 after `i` passes, bits 0 to `i - 1` of `a` taken. -/
def montLoop (a b n : Nat) : Nat → Nat
  | 0 => 0
  | i + 1 => montPass b n (montLoop a b n i) (a.testBit i)

/-- The reference implementation of MONTMUL (R126): `w` passes and one conditional subtraction. -/
def montSerial (w a b n : Nat) : Nat :=
  let s := montLoop a b n w
  if n ≤ s then s - n else s

/-- The number of trailing zero bits, looking at no more than the first argument's number of bits. -/
def trailingZeros : Nat → Nat → Nat
  | 0, _ => 0
  | k + 1, m => if m % 2 = 1 then 0 else trailingZeros k (m / 2) + 1

/-- `s` of R169: `m = 2^s * d` with `d` odd. -/
def twoPart (m : Nat) : Nat := trailingZeros (bitlen m) m

/-- `d` of R169: `m >> s`. -/
def oddPart (m : Nat) : Nat := m / 2 ^ twoPart m

/-- The squaring loop of `RoundPasses` (R166), with the number of squarings left. -/
def squaresReachMinusOne (n : Nat) : Nat → Nat → Bool
  | 0, _ => false
  | k + 1, y =>
    let z := y * y % n
    if z = n - 1 then true else if z = 1 then false else squaresReachMinusOne n k z

/-- `RoundPasses(n, s, d, a)` with `(s, d)` of R169 (R166, R171). -/
def roundPasses (n a : Nat) : Bool :=
  let y := powMod a (oddPart (n - 1)) n
  if y = 1 ∨ y = n - 1 then true else squaresReachMinusOne n (twoPart (n - 1) - 1) y

/-- The direct lookup of R168: the answer for 0 to 3 and for even numbers; none where rounds decide. -/
def primeLookup (n : Nat) : Option Bool :=
  if n ≤ 3 then some (n == 2 || n == 3) else if n % 2 = 0 then some false else none

/-- `RandOdd(L)` of R186 applied to the drawn word: bits `L - 1` to 0, top and bottom bit forced to 1. -/
def randOdd (len v : Nat) : Nat := v % 2 ^ len ||| 2 ^ (len - 1) ||| 1

/-- `TrialDivPass(c)` (R191). -/
def trialDivPass (sieve : List Nat) (c : Nat) : Bool := sieve.all fun s => !(c % s == 0 && c != s)

/-- `|a - b|` (R8). -/
def absDiff (a b : Nat) : Nat := (a - b) + (b - a)

/-- `Pred(c)` of R196 with the four selector bits and PE, PO, PG, PF. -/
def predicate (predctl : BitVec 4) (pe po pg pf c : Nat) : Bool :=
  (!predctl.getLsbD 0 || Nat.gcd c pe == 1)
    && (!predctl.getLsbD 1 || Nat.gcd (c - 1) pe == 1)
    && (!predctl.getLsbD 2 || decide (pg ≤ absDiff c po))
    && (!predctl.getLsbD 3 || decide (pf ≤ c))

/-- The loop of R218 with its early exit: `t` is the power reached, the first number the powers still to look at. -/
def scanLoop (g p : Nat) : Nat → Nat → Bool
  | 0, _ => true
  | k + 1, t =>
    let u := t * g % p
    if u = 1 then false else scanLoop g p k u

/-- `ScanTest(g, p)` (R218). -/
def scanTest (g p : Nat) : Bool := scanLoop g p (p - 2) 1

/-- `FactorTest(g, p, F)` (R219). -/
def factorTest (g p : Nat) (fs : List Nat) : Bool := fs.all fun f => powMod g ((p - 1) / f) p != 1

/-- The least index, counted from `i`, of a factor below 2 or not dividing `p - 1` (R217). -/
def badFactorFrom (p : Nat) : Nat → List Nat → Option Nat
  | _, [] => none
  | i, f :: fs => if f < 2 ∨ (p - 1) % f ≠ 0 then some i else badFactorFrom p (i + 1) fs

/-- Bus word `j` of a register's value: bits `32 j + 31` down to `32 j` (R62, R65). -/
def wordOf (v j : Nat) : Word := BitVec.ofNat 32 (v / 2 ^ (32 * j))

/-- The value with bus word `j` replaced and no other bit changed (R62, R69). -/
def withWord (v j : Nat) (d : Word) : Nat :=
  v / 2 ^ (32 * (j + 1)) * 2 ^ (32 * (j + 1)) + d.toNat * 2 ^ (32 * j) + v % 2 ^ (32 * j)

end Sys2Proof.Machine
end

