-- ==== Sys2Proof/Config.lean ====
section
/-! DEFINITION. What an implementation of MMCORE fixes (R6, R190) and the one value the spec leaves free
(the read data of an errored bus read, R70 and U7). -/

namespace Sys2Proof

namespace Config

/-- `NREG`, the number of general operand registers (R6). -/
def nreg : Nat := 16

/-- `NP`, the number of predicate operand registers (R6). -/
def np : Nat := 4

/-- `NF`, the number of factor registers (R6). -/
def nf : Nat := 8

/-- The identification word of the CSR `ID` (R2, R31). -/
def idWord : Word := 0x50430007#32

/-- The data an errored read carries (R70: "returns no defined data"; U7: any value). FREE: it has no body,
so nothing can be proved of its value. It is applied to the count of errored reads before (log entry 4). -/
opaque erroredReadData : Nat → Word

/-- The default of `SIEVE_PRIMES`, part 1 of 2 (R190). -/
def sievePrimesLow : List Nat :=
  [2, 3, 5, 7, 11, 13, 17, 19, 23, 29, 31, 37, 41, 43, 47, 53, 59, 61, 67, 71, 73, 79, 83, 89, 97, 101, 103]

/-- The default of `SIEVE_PRIMES`, part 2 of 2 (R190). -/
def sievePrimesHigh : List Nat :=
  [107, 109, 113, 127, 131, 137, 139, 149, 151, 157, 163, 167, 173, 179, 181, 191, 193, 197, 199, 211, 223,
   227, 229, 233, 239, 241, 251]

/-- The default of `SIEVE_PRIMES`: the 54 primes below 256 (R190). -/
def defaultSievePrimes : List Nat := sievePrimesLow ++ sievePrimesHigh

/-- An element `p` of a sieve list is a prime: at least 2, and no number from 2 to `p - 1` divides it. -/
def primeEntry (p : Nat) : Bool :=
  decide (2 ≤ p) && (List.range p).all fun d => decide (d < 2) || p % d != 0

/-- The parameters R6 allows: `W = 32 * ww` with 1 to 256 words, and a sieve list of distinct primes. U10: a model
must refuse a list with an element that is not prime. -/
def legalParams (ww : Nat) (sieve : List Nat) : Bool :=
  decide (1 ≤ ww ∧ ww ≤ 256) && sieve.all primeEntry && decide sieve.Nodup

end Config

/-- The two OPEN parameters of the model (R6): `W`, given as its number `ww` of 32-bit words, and `SIEVE_PRIMES`.
An illegal choice cannot be built. No step changes them (log entry 1). -/
structure Params where
  /-- `WW`, the number of bus words of an operand register. -/
  ww : Nat
  /-- `SIEVE_PRIMES`. -/
  sieve : List Nat
  /-- R6, U10: the choice is one the spec allows. -/
  legal : Config.legalParams ww sieve = true
  deriving DecidableEq, Repr

/-- `W`, the width in bits of every operand register (R6). -/
def Params.width (par : Params) : Nat := 32 * par.ww

/-- `R = 2^W`, the Montgomery radix; every operand value is below it (R6, R7). -/
def Params.radix (par : Params) : Nat := 2 ^ par.width

/-- The parameters with `ww` words and the default sieve list (R190). -/
def Params.withDefaultSieve (ww : Nat) (h : Config.legalParams ww Config.defaultSievePrimes = true) : Params :=
  ⟨ww, Config.defaultSievePrimes, h⟩

/-- The parameters of `State.reset`: `W = 32` (DESIGN CHOICE, log entry 1: the spec leaves `W` open) and the default
sieve list (R190). -/
def Params.default : Params := Params.withDefaultSieve 1 (by decide +kernel)

end Sys2Proof
end

