-- ==== Sys2Proof/Syntax.lean ====
section
/-! DEFINITION. The twelve commands of the MMCORE command set, edition 1 (R94), one constructor per row of
spec/opcode_table.json, and the pseudo-commands of R101 as the words they stand for. -/

namespace Sys2Proof

/-- A command with the fields it uses (R94, column "Uses"). The operands are, in order, `mode`, `rd`, `rs1`, `rs2`,
`rs3`, less those the command does not use. -/
inductive Instr where
  /-- `MODMUL rd, rs1, rs2, rs3` (R121). -/
  | modmul (rd rs1 rs2 rs3 : Reg)
  /-- `MONTMUL rd, rs1, rs2, rs3` (R124). -/
  | montmul (rd rs1 rs2 rs3 : Reg)
  /-- `MONTR2 rd, rs3` (R128). -/
  | montr2 (rd rs3 : Reg)
  /-- `MODEXP rd, rs1, rs2, rs3` (R141). -/
  | modexp (rd rs1 rs2 rs3 : Reg)
  /-- `MODINV rd, rs1, rs3` (R151). -/
  | modinv (rd rs1 rs3 : Reg)
  /-- `GCD rd, rs1, rs2` (R156). -/
  | gcd (rd rs1 rs2 : Reg)
  /-- `MRTEST rs1` (R166). -/
  | mrtest (rs1 : Reg)
  /-- `RANDODD rd` (R186). -/
  | randodd (rd : Reg)
  /-- `TRIALDIV rs1` (R192). -/
  | trialdiv (rs1 : Reg)
  /-- `PRIMEGEN rd, rs1` (R201). -/
  | primegen (rd rs1 : Reg)
  /-- `ISGEN.mode rs1, rs3` (R216). -/
  | isgen (mode : Mode) (rs1 rs3 : Reg)
  /-- `GENFIND.mode rd, rs3` (R224). -/
  | genfind (mode : Mode) (rd rs3 : Reg)
  deriving DecidableEq, Repr

/-- `mode = 0`, SCAN (R98). -/
def Mode.scan : Mode := 0#2
/-- `mode = 1`, FACTORS (R98). -/
def Mode.factors : Mode := 1#2
/-- `mode = 2`, SAFE (R98). -/
def Mode.safe : Mode := 2#2
/-- `mode = 3`, reserved and illegal (R98). -/
def Mode.reserved : Mode := 3#2

/-- `MODSQR rd, rs1, rs3`: another name for a `MODMUL` word (R101). -/
def Instr.modsqr (rd rs1 rs3 : Reg) : Instr := .modmul rd rs1 rs1 rs3

/-- `MONTSQR rd, rs1, rs3`: another name for a `MONTMUL` word (R101). -/
def Instr.montsqr (rd rs1 rs3 : Reg) : Instr := .montmul rd rs1 rs1 rs3

/-- `TOMONT rd, rs1, rR2, rs3`: another name for a `MONTMUL` word (R101). -/
def Instr.tomont (rd rs1 rR2 rs3 : Reg) : Instr := .montmul rd rs1 rR2 rs3

/-- `FROMMONT rd, rs1, rOne, rs3`: another name for a `MONTMUL` word (R101). -/
def Instr.frommont (rd rs1 rOne rs3 : Reg) : Instr := .montmul rd rs1 rOne rs3

/-- The field `rd` of a command that uses it (R94). -/
def Instr.rd? : Instr → Option Reg
  | .modmul rd _ _ _ => some rd
  | .montmul rd _ _ _ => some rd
  | .montr2 rd _ => some rd
  | .modexp rd _ _ _ => some rd
  | .modinv rd _ _ => some rd
  | .gcd rd _ _ => some rd
  | .mrtest _ => none
  | .randodd rd => some rd
  | .trialdiv _ => none
  | .primegen rd _ => some rd
  | .isgen _ _ _ => none
  | .genfind _ rd _ => some rd

/-- The field `rs1` of a command that uses it (R94). -/
def Instr.rs1? : Instr → Option Reg
  | .modmul _ rs1 _ _ => some rs1
  | .montmul _ rs1 _ _ => some rs1
  | .montr2 _ _ => none
  | .modexp _ rs1 _ _ => some rs1
  | .modinv _ rs1 _ => some rs1
  | .gcd _ rs1 _ => some rs1
  | .mrtest rs1 => some rs1
  | .randodd _ => none
  | .trialdiv rs1 => some rs1
  | .primegen _ rs1 => some rs1
  | .isgen _ rs1 _ => some rs1
  | .genfind _ _ _ => none

/-- The field `rs2` of a command that uses it (R94). -/
def Instr.rs2? : Instr → Option Reg
  | .modmul _ _ rs2 _ => some rs2
  | .montmul _ _ rs2 _ => some rs2
  | .montr2 _ _ => none
  | .modexp _ _ rs2 _ => some rs2
  | .modinv _ _ _ => none
  | .gcd _ _ rs2 => some rs2
  | .mrtest _ => none
  | .randodd _ => none
  | .trialdiv _ => none
  | .primegen _ _ => none
  | .isgen _ _ _ => none
  | .genfind _ _ _ => none

/-- The field `rs3` of a command that uses it (R94). -/
def Instr.rs3? : Instr → Option Reg
  | .modmul _ _ _ rs3 => some rs3
  | .montmul _ _ _ rs3 => some rs3
  | .montr2 _ rs3 => some rs3
  | .modexp _ _ _ rs3 => some rs3
  | .modinv _ _ rs3 => some rs3
  | .gcd _ _ _ => none
  | .mrtest _ => none
  | .randodd _ => none
  | .trialdiv _ => none
  | .primegen _ _ => none
  | .isgen _ _ rs3 => some rs3
  | .genfind _ _ rs3 => some rs3

/-- The field `mode` of a command that has it (R94). -/
def Instr.mode? : Instr → Option Mode
  | .modmul _ _ _ _ => none
  | .montmul _ _ _ _ => none
  | .montr2 _ _ => none
  | .modexp _ _ _ _ => none
  | .modinv _ _ _ => none
  | .gcd _ _ _ => none
  | .mrtest _ => none
  | .randodd _ => none
  | .trialdiv _ => none
  | .primegen _ _ => none
  | .isgen mode _ _ => some mode
  | .genfind mode _ _ => some mode

end Sys2Proof
end

