-- ==== Sys2Proof/WellFormed.lean ====
section
/-! DEFINITION. Which terms of `Instr` are commands. A register field may hold any value (R92, R21), so the one
check is the condition R94 adds for ISGEN and GENFIND: `mode != 3`. -/

namespace Sys2Proof

/-- The further condition of R94 and R98: a command with a `mode` field has `mode != 3`. -/
def Instr.modeLegal (i : Instr) : Bool :=
  match i.mode? with
  | none => true
  | some m => m != Mode.reserved

/-- `i` is a command of the set (R94). -/
def Instr.wellFormed (i : Instr) : Bool := i.modeLegal

end Sys2Proof
end

