-- ==== Sys2Proof/Decode.lean ====
section
/-! DEFINITION. The decoder of R95 as a total function of the command word, rejecting by name, and the encoder
of format C (R91), both from the table of R94. -/

namespace Sys2Proof

/-- Why a word is no command, in the order R95 checks. -/
inductive DecodeError where
  /-- The opcode is not in the table (R95, R97): `IllegalCommand(1)`. -/
  | unknownOpcode
  /-- Some must-be-zero field is not 0 (R92, R95): `IllegalCommand(2)`. -/
  | mustBeZero
  /-- `mode = 3` of ISGEN or GENFIND (R95, R98): `IllegalCommand(3)`. -/
  | reservedMode
  deriving DecidableEq, Repr

/-- The rows of the opcode map (R94). -/
inductive Opcode where
  | modmul | montmul | montr2 | modexp | modinv | gcd | mrtest | randodd | trialdiv | primegen | isgen | genfind
  deriving DecidableEq, Repr

/-- Column "op" of R94. -/
def Opcode.code : Opcode → BitVec 8
  | .modmul => 0x10#8
  | .montmul => 0x11#8
  | .montr2 => 0x12#8
  | .modexp => 0x20#8
  | .modinv => 0x30#8
  | .gcd => 0x31#8
  | .mrtest => 0x40#8
  | .randodd => 0x50#8
  | .trialdiv => 0x51#8
  | .primegen => 0x52#8
  | .isgen => 0x60#8
  | .genfind => 0x61#8

/-- Column "mask" of R94: the opcode and every must-be-zero field. -/
def Opcode.mask : Opcode → Word
  | .modmul => 0xFF0000FF#32
  | .montmul => 0xFF0000FF#32
  | .montr2 => 0xFF0FF0FF#32
  | .modexp => 0xFF0000FF#32
  | .modinv => 0xFF0F00FF#32
  | .gcd => 0xFFF000FF#32
  | .mrtest => 0xFFFF0FFF#32
  | .randodd => 0xFFFFF0FF#32
  | .trialdiv => 0xFFFF0FFF#32
  | .primegen => 0xFFFF00FF#32
  | .isgen => 0xFC0F0FFF#32
  | .genfind => 0xFC0FF0FF#32

/-- Column "match" of R94. -/
def Opcode.matchWord : Opcode → Word
  | .modmul => 0x00000010#32
  | .montmul => 0x00000011#32
  | .montr2 => 0x00000012#32
  | .modexp => 0x00000020#32
  | .modinv => 0x00000030#32
  | .gcd => 0x00000031#32
  | .mrtest => 0x00000040#32
  | .randodd => 0x00000050#32
  | .trialdiv => 0x00000051#32
  | .primegen => 0x00000052#32
  | .isgen => 0x00000060#32
  | .genfind => 0x00000061#32

/-- The opcodes of the table, in its order. -/
def opcodeTable : List Opcode :=
  [.modmul, .montmul, .montr2, .modexp, .modinv, .gcd, .mrtest, .randodd, .trialdiv, .primegen, .isgen, .genfind]

/-- The row an opcode value selects; none for the reserved values of R97. -/
def opcodeOf (op : BitVec 8) : Option Opcode := opcodeTable.find? fun o => o.code == op

/-- `cw[7:0]` (R91). -/
def fieldOp (cw : Word) : BitVec 8 := cw.extractLsb' 0 8
/-- `cw[11:8]` (R91). -/
def fieldRd (cw : Word) : Reg := cw.extractLsb' 8 4
/-- `cw[15:12]` (R91). -/
def fieldRs1 (cw : Word) : Reg := cw.extractLsb' 12 4
/-- `cw[19:16]` (R91). -/
def fieldRs2 (cw : Word) : Reg := cw.extractLsb' 16 4
/-- `cw[23:20]` (R91). -/
def fieldRs3 (cw : Word) : Reg := cw.extractLsb' 20 4
/-- `cw[25:24]` (R91, R98). -/
def fieldMode (cw : Word) : Mode := cw.extractLsb' 24 2

/-- Whether the command has a `mode` (R94, R98). -/
def Opcode.hasMode : Opcode → Bool
  | .modmul => false
  | .montmul => false
  | .montr2 => false
  | .modexp => false
  | .modinv => false
  | .gcd => false
  | .mrtest => false
  | .randodd => false
  | .trialdiv => false
  | .primegen => false
  | .isgen => true
  | .genfind => true

/-- The command of a row with the fields of the word (R94, R95 last line). -/
def Opcode.build (o : Opcode) (cw : Word) : Instr :=
  match o with
  | .modmul => .modmul (fieldRd cw) (fieldRs1 cw) (fieldRs2 cw) (fieldRs3 cw)
  | .montmul => .montmul (fieldRd cw) (fieldRs1 cw) (fieldRs2 cw) (fieldRs3 cw)
  | .montr2 => .montr2 (fieldRd cw) (fieldRs3 cw)
  | .modexp => .modexp (fieldRd cw) (fieldRs1 cw) (fieldRs2 cw) (fieldRs3 cw)
  | .modinv => .modinv (fieldRd cw) (fieldRs1 cw) (fieldRs3 cw)
  | .gcd => .gcd (fieldRd cw) (fieldRs1 cw) (fieldRs2 cw)
  | .mrtest => .mrtest (fieldRs1 cw)
  | .randodd => .randodd (fieldRd cw)
  | .trialdiv => .trialdiv (fieldRs1 cw)
  | .primegen => .primegen (fieldRd cw) (fieldRs1 cw)
  | .isgen => .isgen (fieldMode cw) (fieldRs1 cw) (fieldRs3 cw)
  | .genfind => .genfind (fieldMode cw) (fieldRd cw) (fieldRs3 cw)

/-- Decoding, with the checks in the order of R95. -/
def decode (cw : Word) : Except DecodeError Instr :=
  match opcodeOf (fieldOp cw) with
  | none => .error .unknownOpcode
  | some o =>
    if cw &&& o.mask ≠ o.matchWord then .error .mustBeZero
    else if o.hasMode = true ∧ fieldMode cw = Mode.reserved then .error .reservedMode
    else .ok (o.build cw)

/-- Format C, most significant field first, as the picture of R91 draws it. -/
def formatC (fn : BitVec 8) (rs3 rs2 rs1 rd : Reg) (op : BitVec 8) : Word :=
  fn ++ rs3 ++ rs2 ++ rs1 ++ rd ++ op

/-- `fn` of a command with a mode: bits 25:24 are `mode`, bits 31:26 are 0 (R91, R94). -/
def modeFn (mode : Mode) : BitVec 8 := 0#6 ++ mode

/-- The word of a command: its fields in format C, every unused field 0 (R91, R92, R94). -/
def encode (i : Instr) : Word :=
  match i with
  | .modmul rd rs1 rs2 rs3 => formatC 0#8 rs3 rs2 rs1 rd 0x10#8
  | .montmul rd rs1 rs2 rs3 => formatC 0#8 rs3 rs2 rs1 rd 0x11#8
  | .montr2 rd rs3 => formatC 0#8 rs3 0#4 0#4 rd 0x12#8
  | .modexp rd rs1 rs2 rs3 => formatC 0#8 rs3 rs2 rs1 rd 0x20#8
  | .modinv rd rs1 rs3 => formatC 0#8 rs3 0#4 rs1 rd 0x30#8
  | .gcd rd rs1 rs2 => formatC 0#8 0#4 rs2 rs1 rd 0x31#8
  | .mrtest rs1 => formatC 0#8 0#4 0#4 rs1 0#4 0x40#8
  | .randodd rd => formatC 0#8 0#4 0#4 0#4 rd 0x50#8
  | .trialdiv rs1 => formatC 0#8 0#4 0#4 rs1 0#4 0x51#8
  | .primegen rd rs1 => formatC 0#8 0#4 0#4 rs1 rd 0x52#8
  | .isgen mode rs1 rs3 => formatC (modeFn mode) rs3 0#4 rs1 0#4 0x60#8
  | .genfind mode rd rs3 => formatC (modeFn mode) rs3 0#4 0#4 rd 0x61#8

/-- The instruction the decoder reads from the low `nbits` bits of `w`, every higher bit 0. A command is the one
32-bit number written to `CMD` (R90, R35), so there is no layout in memory. -/
def decodeTableWord (nbits w : Nat) : Option Instr :=
  match decode (BitVec.ofNat 32 (w % 2 ^ nbits)) with
  | .ok i => some i
  | .error _ => none

end Sys2Proof
end

