-- ==== Sys2Proof/Machine/State.lean ====
section
/-! DEFINITION. The state of MMCORE as plain data (R20, R50), the inputs the outside agents give it (R11, R82), and
the reasons a step can stop. -/

namespace Sys2Proof.Machine

/-- Nothing stops MMCORE: a command that cannot deliver ends in a faulting end, which is a next state (R247), and a
bus error is an answer to one access (R70). So there is no constructor (R290: no outcome is unpredictable). -/
inductive Fault where
  deriving DecidableEq, Repr

/-- Why the model has no transition. -/
inductive Refusal where
  /-- Raised by `exec` for an instruction that has no meaning in the model yet. Safe: nothing is claimed of it. -/
  | notModelled (mnemonic : String)
  /-- Raised by a bus access while `rst_n` is low: R280 "get no defined response and the host must not make them",
  U8 "the model has no transition for them". Safe: the host's duty forbids it. -/
  | accessDuringReset
  deriving DecidableEq, Repr

/-- The causes of `InvalidParameter`, in the numbering of R244. -/
inductive ParamCause where
  /-- 1: the modulus register is 0. -/
  | zeroModulus
  /-- 2: the modulus is even and not 0. -/
  | evenModulus
  /-- 3: `ROUNDS = 0`. -/
  | zeroRounds
  /-- 4: RANDODD's `BITS` is 0 or above `W`; PRIMEGEN's start is 0. -/
  | badBitLength
  /-- 5: the group modulus is below 3. -/
  | badGroupModulus
  /-- 6: FACTORS mode with `FCNT` 0 or above 8. -/
  | badFactorCount
  /-- 7: `f[i]` is below 2 or does not divide `p - 1`; the index is reported. -/
  | badFactor (i : Nat)
  /-- 8: SAFE mode with `p` even or below 5. -/
  | badSafeModulus
  deriving DecidableEq, Repr

/-- The faults a command can end in (R241). The reserved codes 0x02 and 0x05 are produced by none (R260, U12). -/
inductive CommandFault where
  /-- 0x01. -/
  | invalidParameter (cause : ParamCause)
  /-- 0x03, with `ATTEMPTS` at the fault. -/
  | primeSearchExhausted (attempts : Word)
  /-- 0x04, with the greatest common divisor. -/
  | noInverse (g : Nat)
  /-- 0x10, with what the decoder found. -/
  | illegalCommand (why : DecodeError)
  /-- 0x11, with `ATTEMPTS` at the fault. -/
  | generatorSearchExhausted (attempts : Word)
  /-- 0x12. -/
  | entropyRange
  deriving DecidableEq, Repr

/-- The draw a running command has asked the entropy port for, and where in its rule it stands (R48, R49, R80):
the hidden progress of the engine between two draws. What is not here is in the latched context. -/
inductive Wait where
  /-- RANDODD has requested `RandBits(L)` (R186). -/
  | randodd (rd : Reg) (len : Nat)
  /-- MRTEST of `n` has requested a base; `left` rounds remain, this one among them (R166). -/
  | mrtest (n left : Nat)
  /-- PRIMEGEN has requested the bits of a candidate of `len` bits (R201). -/
  | primegenCandidate (rd : Reg) (len : Nat)
  /-- PRIMEGEN has requested a base for its candidate `c`; `left` rounds remain, this one among them (R201, R204). -/
  | primegenBase (rd : Reg) (len c left : Nat)
  /-- GENFIND has requested a candidate generator modulo `p` (R224). -/
  | genfind (mode : Mode) (rd : Reg) (p : Nat)
  deriving DecidableEq, Repr

/-- A request on the entropy port (R78, R79, R82). -/
inductive Request where
  /-- `RandBits(k)`. -/
  | bits (k : Nat)
  /-- `RandRange(lo, hi)`, both bounds inclusive. -/
  | range (lo hi : Nat)
  deriving DecidableEq, Repr

/-- The four states of R26, BUSY split by what the engine does next. -/
inductive Engine where
  /-- IDLE. -/
  | idle
  /-- BUSY: a command is accepted and has not begun (R46). -/
  | accepted
  /-- BUSY with `ENTWAIT`: the command stands at a draw that has not been answered (R49). -/
  | waiting (w : Wait)
  /-- DONE. -/
  | done
  /-- FAULT. -/
  | fault
  deriving DecidableEq, Repr

/-- The context latched at acceptance (R46, R47). -/
structure Ctx where
  /-- The accepted word. -/
  cw : Word
  /-- `x[cw[15:12]]` at acceptance. -/
  src1 : Nat
  /-- `x[cw[19:16]]` at acceptance. -/
  src2 : Nat
  /-- `x[cw[23:20]]` at acceptance. -/
  src3 : Nat
  /-- `ROUNDS` at acceptance. -/
  rounds : Word
  /-- `LIMIT` at acceptance. -/
  limit : Word
  /-- `BITS` at acceptance. -/
  bits : Word
  /-- `PREDCTL[3:0]` at acceptance. -/
  predctl : BitVec 4
  /-- `FCNT[3:0]` at acceptance. -/
  fcnt : BitVec 4
  /-- `CTRL.SIEVE_EN` at acceptance. -/
  sieveEn : Bool
  deriving DecidableEq, Repr

/-- `ctx` after reset: 0 (R50). -/
def Ctx.zero : Ctx where
  cw := 0#32
  src1 := 0
  src2 := 0
  src3 := 0
  rounds := 0#32
  limit := 0#32
  bits := 0#32
  predctl := 0#4
  fcnt := 0#4
  sieveEn := false

/-- One access of a bus master (R82): an offset from the window's base, a direction with the data of a write, the
byte enables, and whether more than 32 bits are presented as one access (R68). -/
structure Access where
  /-- The byte offset; R70 gives offsets at and above 0x8000 a bus error. -/
  offset : Nat
  /-- The data of a write; none for a read. -/
  write : Option Word
  /-- The byte enables: all four on is a 32-bit access. -/
  lanes : BitVec 4
  /-- A burst wider than 32 bits presented as one access. -/
  burst : Bool
  deriving DecidableEq, Repr

/-- The answer of the bus port to one access (R82: read data, OK or bus error). -/
inductive BusResponse where
  /-- A write completed. -/
  | written
  /-- A read completed with this data. -/
  | data (d : Word)
  /-- A write got a bus error. -/
  | writeError
  /-- A read got a bus error; the data on the port is not defined (R70, U7) and is a free value. -/
  | readError (d : Word)
  deriving DecidableEq, Repr

/-- What an outside agent does next, or that the engine is the next to move (R11, R82). -/
inductive Input where
  /-- The engine takes its step: it runs an accepted command up to its first unanswered draw or its end (R48). -/
  | tick
  /-- A host access. -/
  | access (a : Access)
  /-- The entropy source answers the outstanding request with this word (R80). -/
  | answer (v : Nat)
  /-- The entropy source answers a request that a reset has withdrawn (R50, R282). -/
  | lateAnswer (v : Nat)
  /-- A host access in the same cycle as the engine's step (`none`) or an entropy answer (R45, R253). -/
  | sameCycle (a : Access) (ans : Option Nat)
  /-- The level put on `rst_n` (R280): `false` is low, reset held; `true` is high, reset released. -/
  | rstN (level : Bool)
  deriving DecidableEq, Repr

/-- The state: what R20 gives MMCORE, then the model's own fields (the parameters, the inputs to come, the port's last
answer, the level of `rst_n` and the count of errored reads). -/
structure State where
  /-- `x[0..15]`, the general operand file (R21). -/
  x : Vector Nat 16
  /-- `p[0..3]`, the predicate file: PE, PO, PG, PF (R23). -/
  p : Vector Nat 4
  /-- `f[0..7]`, the factor file (R24). -/
  f : Vector Nat 8
  /-- `CTRL.SIEVE_EN` (R33). -/
  sieveEn : Bool
  /-- The engine: `STATUS.BUSY`, `DONE`, `FAULT`, `ENTWAIT`, and its hidden progress (R26, R27, R34, R48, R49). -/
  engine : Engine
  /-- `STATUS.BOOL` (R27, R34). -/
  boolFlag : Bool
  /-- `CMD`, the last accepted word (R35). -/
  cmd : Word
  /-- `ERR.CODE` (R36). -/
  err : BitVec 8
  /-- `ERRINFO` (R37). -/
  errInfo : Word
  /-- `ROUNDS` (R38). -/
  rounds : Word
  /-- `LIMIT` (R39). -/
  limit : Word
  /-- `BITS` (R40). -/
  bits : Word
  /-- `ATTEMPTS` (R41). -/
  attempts : Word
  /-- `PREDCTL`, its four implemented bits (R42). -/
  predctl : BitVec 4
  /-- `FCNT.N` (R43). -/
  fcnt : BitVec 4
  /-- `IRQ_EN`: bit 0 DONE_EN, bit 1 FAULT_EN (R44). -/
  irqEn : BitVec 2
  /-- `IRQ_STAT`: bit 0 DONE_IP, bit 1 FAULT_IP (R45). -/
  irqStat : BitVec 2
  /-- The latched context (R46, R47). -/
  ctx : Ctx
  /-- The model's own: the parameters `W` and `SIEVE_PRIMES` (R6, R12); no step changes them. -/
  par : Params
  /-- The model's own: what happens next, in order (log entry 2). -/
  inputs : List Input
  /-- The model's own: the port's answer to the last access. -/
  resp : Option BusResponse
  /-- The model's own: `rst_n` is being held low (R280). -/
  rstLow : Bool
  /-- The model's own: how many reads have got a bus error; it picks the free read data (log entry 4). -/
  erroredReads : Nat
  deriving DecidableEq, Repr

/-- The state after reset of a block with the given parameters: the table of R50. -/
def State.resetFor (par : Params) : State where
  x := Vector.replicate 16 0
  p := Vector.replicate 4 0
  f := Vector.replicate 8 0
  sieveEn := false
  engine := .idle
  boolFlag := false
  cmd := 0#32
  err := 0#8
  errInfo := 0#32
  rounds := 0#32
  limit := 0#32
  bits := 0#32
  attempts := 0#32
  predctl := 0#4
  fcnt := 0#4
  irqEn := 0#2
  irqStat := 0#2
  ctx := Ctx.zero
  par := par
  inputs := []
  resp := none
  rstLow := false
  erroredReads := 0

/-- The machine right after reset (R50, R280), with the parameters of log entry 1. -/
def State.reset : State := State.resetFor Params.default

end Sys2Proof.Machine
end

