-- ==== Sys2Proof/Machine/Flags.lean ====
section
/-! DEFINITION. The status flags of R27, the register `STATUS` they make up (R34), and the interrupt line (R252). -/

namespace Sys2Proof.Machine

/-- `BUSY` (R26). -/
def Engine.busy : Engine → Bool
  | .idle => false
  | .accepted => true
  | .waiting _ => true
  | .done => false
  | .fault => false

/-- `DONE` (R26). -/
def Engine.isDone : Engine → Bool
  | .idle => false
  | .accepted => false
  | .waiting _ => false
  | .done => true
  | .fault => false

/-- `FAULT` (R26). -/
def Engine.isFault : Engine → Bool
  | .idle => false
  | .accepted => false
  | .waiting _ => false
  | .done => false
  | .fault => true

/-- `ENTWAIT`: a draw is outstanding (R27, R49, R80). -/
def Engine.entWait : Engine → Bool
  | .idle => false
  | .accepted => false
  | .waiting _ => true
  | .done => false
  | .fault => false

/-- `STATUS.BUSY`. -/
def State.busy (s : State) : Bool := s.engine.busy

/-- `STATUS` (R34): bit 0 BUSY, 1 DONE, 2 FAULT, 3 BOOL, 4 ENTWAIT; bits 31:5 read 0. -/
def State.status (s : State) : Word :=
  0#27 ++ BitVec.ofBool s.engine.entWait ++ BitVec.ofBool s.boolFlag ++ BitVec.ofBool s.engine.isFault
    ++ BitVec.ofBool s.engine.isDone ++ BitVec.ofBool s.engine.busy

/-- `DONE_IP` as a mask (R45). -/
def donePending : BitVec 2 := 1#2

/-- `FAULT_IP` as a mask (R45). -/
def faultPending : BitVec 2 := 2#2

/-- The output `irq`: high exactly while `(IRQ_STAT & IRQ_EN) & 3` is not 0 (R252). -/
def State.irq (s : State) : Bool := s.irqStat &&& s.irqEn != 0#2

end Sys2Proof.Machine
end

