-- ==== Sys2Proof/Machine/Operands.lean ====
section
/-! DEFINITION. The operands of the commands (R93): the latched sources, the implicit CSR operands as latched (R47),
and the `x`, `p`, `f` files. -/

namespace Sys2Proof.Machine

/-- `W` of this block (R6). -/
def State.width (s : State) : Nat := s.par.width

/-- The value of `x[r]` now (R21). -/
def State.reg (s : State) (r : Reg) : Nat := s.x[r.toNat]'r.isLt

/-- The file with `x[r]` replaced (R22). -/
def setReg (x : Vector Nat 16) (r : Reg) (v : Nat) : Vector Nat 16 := x.set r.toNat v r.isLt

/-- `x[rs1]` in a command rule: the copy latched at acceptance (R46, R47). -/
def State.src1 (s : State) : Nat := s.ctx.src1

/-- `x[rs2]` in a command rule: the copy latched at acceptance (R46, R47). -/
def State.src2 (s : State) : Nat := s.ctx.src2

/-- `x[rs3]` in a command rule: the copy latched at acceptance (R46, R47). -/
def State.src3 (s : State) : Nat := s.ctx.src3

/-- `PE`, the public exponent of the coprimality tests (R23). -/
def State.pe (s : State) : Nat := s.p[0]

/-- `PO`, the other prime of the minimum-gap test (R23). -/
def State.po (s : State) : Nat := s.p[1]

/-- `PG`, the minimum gap (R23). -/
def State.pg (s : State) : Nat := s.p[2]

/-- `PF`, the minimum-value floor (R23). -/
def State.pf (s : State) : Nat := s.p[3]

/-- `f[0]` to `f[FCNT-1]` with the latched count (R24, R43, R47). -/
def State.factors (s : State) : List Nat := s.f.toList.take s.ctx.fcnt.toNat

end Sys2Proof.Machine
end

