-- ==== Sys2Proof/Machine/Ops.lean ====
section
/-! DEFINITION. The shared operations: acceptance (R46), the successful end (R246), the faulting end, which is all
that taking an exception is here (R247), placing a draw (R80), and reset (R50, R280). There is no return from a fault:
the next acceptance leaves the FAULT state (R250). -/

namespace Sys2Proof.Machine

/-- The cause number and index of R244 as `ERRINFO` holds them (R242). -/
def ParamCause.info : ParamCause → Word
  | .zeroModulus => 1#32
  | .evenModulus => 2#32
  | .zeroRounds => 3#32
  | .badBitLength => 4#32
  | .badGroupModulus => 5#32
  | .badFactorCount => 6#32
  | .badFactor i => BitVec.ofNat 32 (7 + 256 * i)
  | .badSafeModulus => 8#32

/-- The number R95 gives the decoder's finding (R242, row 0x10). -/
def illegalInfo : DecodeError → Word
  | .unknownOpcode => 1#32
  | .mustBeZero => 2#32
  | .reservedMode => 3#32

/-- `ERR.CODE` of a fault (R241). -/
def CommandFault.code : CommandFault → BitVec 8
  | .invalidParameter _ => 0x01#8
  | .primeSearchExhausted _ => 0x03#8
  | .noInverse _ => 0x04#8
  | .illegalCommand _ => 0x10#8
  | .generatorSearchExhausted _ => 0x11#8
  | .entropyRange => 0x12#8

/-- `ERRINFO` of a fault (R242). DESIGN CHOICE (log entry 18): for `NoInverseError` it is the formula of R242 and R151, the
low 32 bits of the gcd, also for a gcd above 1 that is 1 modulo `2^32`, where it is 1 and R242 adds "never 1". -/
def CommandFault.info : CommandFault → Word
  | .invalidParameter cause => cause.info
  | .primeSearchExhausted attempts => attempts
  | .noInverse g => BitVec.ofNat 32 g
  | .illegalCommand why => illegalInfo why
  | .generatorSearchExhausted attempts => attempts
  | .entropyRange => 0#32

/-- The context acceptance of `cw` latches (R46). -/
def latch (cw : Word) (s : State) : Ctx where
  cw := cw
  src1 := s.reg (fieldRs1 cw)
  src2 := s.reg (fieldRs2 cw)
  src3 := s.reg (fieldRs3 cw)
  rounds := s.rounds
  limit := s.limit
  bits := s.bits
  predctl := s.predctl
  fcnt := s.fcnt
  sieveEn := s.sieveEn

/-- Acceptance of the word `cw` (R46): one atomic step. `IRQ_STAT` is not changed. -/
def accept (cw : Word) (s : State) : State :=
  { s with
    cmd := cw
    engine := .accepted
    boolFlag := false
    err := 0#8
    errInfo := 0#32
    attempts := 0#32
    ctx := latch cw s }

/-- The successful end of a command with no result register and no Boolean (R246). -/
def finish (s : State) : State :=
  { s with engine := .done, irqStat := s.irqStat ||| donePending }

/-- The successful end of a command with a destination (R246): `x[rd] <- v`; `BOOL` stays as it is. -/
def finishValue (rd : Reg) (v : Nat) (s : State) : State := finish { s with x := setReg s.x rd v }

/-- The successful end of MRTEST, TRIALDIV and ISGEN (R246): `BOOL <- b`, no `x` register written. -/
def finishBool (b : Bool) (s : State) : State := finish { s with boolFlag := b }

/-- The faulting end (R247), `raise F(info)`: one atomic step; no `x` register is written, `BOOL` and `ATTEMPTS`
stay as they are. -/
def raise (flt : CommandFault) (s : State) : State :=
  { s with
    err := flt.code
    errInfo := flt.info
    engine := .fault
    irqStat := s.irqStat ||| faultPending }

/-- `raise InvalidParameter(cause)` (R244). -/
def raiseParam (cause : ParamCause) (s : State) : State := raise (.invalidParameter cause) s

/-- The engine places a draw on the entropy port and stands there (R49, R80): `ENTWAIT` is set. -/
def placeDraw (w : Wait) (s : State) : State := { s with engine := .waiting w }

/-- `ATTEMPTS <- ATTEMPTS + 1` (R41). -/
def countAttempt (s : State) : State := { s with attempts := s.attempts + 1#32 }

/-- The kind and the arguments of the request a waiting engine has placed (R49, R78, R79). -/
def Wait.request : Wait → Request
  | .randodd _ len => .bits len
  | .mrtest n _ => .range 2 (n - 2)
  | .primegenCandidate _ len => .bits len
  | .primegenBase _ _ c _ => .range 2 (c - 2)
  | .genfind _ _ p => .range 2 (p - 1)

/-- The outstanding request on the entropy port; none unless a draw is waited for (R49). -/
def State.request (s : State) : Option Request :=
  match s.engine with
  | .idle => none
  | .accepted => none
  | .waiting w => some w.request
  | .done => none
  | .fault => none

/-- Reset (R50, R280, R281): the reset state. What is not MMCORE's own stays (R283): the parameters, the inputs to come,
the port's last answer and the count that picks free read data. -/
def resetAll (s : State) : State :=
  { State.resetFor s.par with inputs := s.inputs, resp := s.resp, erroredReads := s.erroredReads }

/-- `rst_n` is driven to a level (R280). While it is low, and when it goes high, the state is the reset state. -/
def driveResetPin (level : Bool) (s : State) : State :=
  if level then (if s.rstLow then resetAll s else s) else { resetAll s with rstLow := true }

end Sys2Proof.Machine
end

