-- ==== Sys2Proof/Machine/Bus.lean ====
section
/-! DEFINITION. The bus window (20_memory.md): the address map of R61 to R64, the control and status registers of R28 to
R45, the bus error (R70), the locked windows (R72), and one host access as one step (R74). -/

namespace Sys2Proof.Machine

/-- The fifteen control and status registers (R29). -/
inductive Csr where
  | id | param | ctrl | status | cmd | err | errInfo | rounds | limit | bits | attempts | predctl | fcnt | irqEn
  | irqStat
  deriving DecidableEq, Repr

/-- Where an offset of the window leads (R61). -/
inductive Target where
  | csr (c : Csr)
  | x (i : Fin 16) (j : Nat)
  | p (k : Fin 4) (j : Nat)
  | f (k : Fin 8) (j : Nat)
  deriving DecidableEq, Repr

/-- The CSR map in the order of its offsets, four bytes apart (R29). -/
def csrMap : List Csr :=
  [.id, .param, .ctrl, .status, .cmd, .err, .errInfo, .rounds, .limit, .bits, .attempts, .predctl, .fcnt, .irqEn,
    .irqStat]

/-- A CSR's offset (R29). -/
def Csr.offset (c : Csr) : Nat := 4 * csrMap.idxOf c

/-- The offset of word `j` of `x[i]` (R62). -/
def xOffset (i j : Nat) : Nat := 0x1000 + 0x400 * i + 4 * j

/-- The offset of word `j` of `p[k]` (R63). -/
def pOffset (k j : Nat) : Nat := 0x5000 + 0x400 * k + 4 * j

/-- The offset of word `j` of `f[k]` (R64). -/
def fOffset (k j : Nat) : Nat := 0x6000 + 0x400 * k + 4 * j

/-- The target of an aligned offset; none where nothing is mapped: 0x003C to 0x0FFF, the tail of a slot, and 0x8000 and
above (R61, R70). -/
def targetOf (ww off : Nat) : Option Target :=
  if off < 0x1000 then (csrMap[off / 4]?).map .csr
  else if ww ≤ off % 0x400 / 4 then none
  else if off < 0x5000 then some (.x (Fin.ofNat 16 ((off - 0x1000) / 0x400)) (off % 0x400 / 4))
  else if off < 0x6000 then some (.p (Fin.ofNat 4 ((off - 0x5000) / 0x400)) (off % 0x400 / 4))
  else if off < 0x8000 then some (.f (Fin.ofNat 8 ((off - 0x6000) / 0x400)) (off % 0x400 / 4))
  else none

/-- `PARAM` (R32): NP, NF, NREG, WW from the most significant field down. -/
def paramWord (par : Params) : Word :=
  BitVec.ofNat 4 Config.np ++ BitVec.ofNat 4 Config.nf ++ BitVec.ofNat 8 Config.nreg ++ BitVec.ofNat 16 par.ww

/-- What a read of a CSR returns (R31 to R45): reserved bits and `CTRL.SRST` read 0. -/
def csrRead (c : Csr) (s : State) : Word :=
  match c with
  | .id => Config.idWord
  | .param => paramWord s.par
  | .ctrl => 0#31 ++ BitVec.ofBool s.sieveEn
  | .status => s.status
  | .cmd => s.cmd
  | .err => s.err.setWidth 32
  | .errInfo => s.errInfo
  | .rounds => s.rounds
  | .limit => s.limit
  | .bits => s.bits
  | .attempts => s.attempts
  | .predctl => s.predctl.setWidth 32
  | .fcnt => s.fcnt.setWidth 32
  | .irqEn => s.irqEn.setWidth 32
  | .irqStat => s.irqStat.setWidth 32

/-- A write to `CTRL` (R33, R281): bit 31 set resets the block and the other bits are ignored; else bit 0 is stored. -/
def writeCtrl (d : Word) (s : State) : State :=
  if d.getLsbD 31 then resetAll s else { s with sieveEn := d.getLsbD 0 }

/-- A write of 1s to `IRQ_STAT` clears those bits (R45). -/
def clearPending (d : Word) (s : State) : State := { s with irqStat := s.irqStat &&& ~~~ d.setWidth 2 }

/-- A write to a CSR; none is a bus error: a read-only CSR (R71), or `CMD` while BUSY (R73). -/
def csrWrite (c : Csr) (d : Word) (s : State) : Option State :=
  match c with
  | .id => none
  | .param => none
  | .ctrl => some (writeCtrl d s)
  | .status => none
  | .cmd => if s.busy then none else some (accept d s)
  | .err => none
  | .errInfo => none
  | .rounds => some { s with rounds := d }
  | .limit => some { s with limit := d }
  | .bits => some { s with bits := d }
  | .attempts => none
  | .predctl => some { s with predctl := d.setWidth 4 }
  | .fcnt => some { s with fcnt := d.setWidth 4 }
  | .irqEn => some { s with irqEn := d.setWidth 2 }
  | .irqStat => some (clearPending d s)

/-- A read of a target; none is a bus error: an operand window while BUSY (R72). -/
def targetRead (t : Target) (s : State) : Option Word :=
  match t with
  | .csr c => some (csrRead c s)
  | .x i j => if s.busy then none else some (wordOf s.x[i] j)
  | .p k j => if s.busy then none else some (wordOf s.p[k] j)
  | .f k j => if s.busy then none else some (wordOf s.f[k] j)

/-- A write to a target; none is a bus error: as `csrWrite`, or an operand window while BUSY (R72). -/
def targetWrite (t : Target) (d : Word) (s : State) : Option State :=
  match t with
  | .csr c => csrWrite c d s
  | .x i j => if s.busy then none else some { s with x := s.x.set i (withWord s.x[i] j d) }
  | .p k j => if s.busy then none else some { s with p := s.p.set k (withWord s.p[k] j d) }
  | .f k j => if s.busy then none else some { s with f := s.f.set k (withWord s.f[k] j d) }

/-- The target of an access: an aligned 32-bit access to a mapped offset (R67, R68, R70). -/
def Access.target (a : Access) (ww : Nat) : Option Target :=
  if a.offset % 4 = 0 ∧ a.lanes = 15#4 ∧ a.burst = false then targetOf ww a.offset else none

/-- `MemRead(off, 4)`: a 32-bit read by the host (R9). -/
def memRead (off : Nat) : Access := ⟨off, none, 15#4, false⟩

/-- `MemWrite(off, 4, d)`: a 32-bit write by the host (R9). -/
def memWrite (off : Nat) (d : Word) : Access := ⟨off, some d, 15#4, false⟩

/-- A read with its answer. An errored read returns no defined data: its data is free (R70, U7, log entry 4). -/
def busRead (a : Access) (s : State) : State :=
  match (a.target s.par.ww).bind (fun t => targetRead t s) with
  | some d => { s with resp := some (.data d) }
  | none =>
    { s with
      resp := some (.readError (Config.erroredReadData s.erroredReads))
      erroredReads := s.erroredReads + 1 }

/-- A write with its answer. A bus error changes no state of MMCORE (R70). -/
def busWrite (a : Access) (d : Word) (s : State) : State :=
  match (a.target s.par.ww).bind (fun t => targetWrite t d s) with
  | some t => { t with resp := some .written }
  | none => { s with resp := some .writeError }

/-- One host access as one step (R69, R74). While `rst_n` is low there is no transition (R280, U8). -/
def busAccess (a : Access) (s : State) : Host.Outcome State Fault Refusal :=
  if s.rstLow then .refused .accessDuringReset
  else
    match a.write with
    | none => .next (busRead a s)
    | some d => .next (busWrite a d s)

end Sys2Proof.Machine
end

