-- ==== Sys2Proof/Machine/Euclid.lean ====
section
/-! DEFINITION. Unit 3, the extended Euclidean inverse solver: MODINV, GCD (42_modinv.md). -/

namespace Sys2Proof.Machine

/-- MODINV (R150 to R153): the inverse of `a` modulo `m` in 0 to `m - 1`; a zero modulus is `InvalidParameter(1)`, a
common factor is `NoInverseError` with the greatest common divisor. -/
def execModinv (rd _rs1 _rs3 : Reg) (s : State) : Host.Outcome State Fault Refusal :=
  .next <|
    if s.src3 = 0 then raiseParam .zeroModulus s
    else if Nat.gcd s.src1 s.src3 ≠ 1 then raise (.noInverse (Nat.gcd s.src1 s.src3)) s
    else finishValue rd (invMod s.src1 s.src3) s

/-- GCD (R156, R157): total, `gcd(0, 0) = 0`. -/
def execGcd (rd _rs1 _rs2 : Reg) (s : State) : Host.Outcome State Fault Refusal :=
  .next (finishValue rd (Nat.gcd s.src1 s.src2) s)

end Sys2Proof.Machine
end

