-- ==== Sys2Proof/Machine/Draw.lean ====
section
/-! DEFINITION. The entropy port (R78 to R81) and what each drawing command does with an answer. A command that draws
is run from one draw to the next (R48); every answer is an input of the step that consumes it (R12, R81). -/

namespace Sys2Proof.Machine

/-- The word on the port's data lines: `W` bits (R78, R82). -/
def portWord (s : State) (v : Nat) : Nat := v % 2 ^ s.width

/-- What follows an answer to `RandRange(lo, hi)` (R79): outside the bounds the command ends in `EntropyRange` (R245). -/
def rangeAnswer (lo hi v : Nat) (s : State) (use : State) : State :=
  if lo ≤ v ∧ v ≤ hi then use else raise .entropyRange s

/-- RANDODD after its draw (R186). -/
def randoddAnswer (rd : Reg) (len v : Nat) (s : State) : State := finishValue rd (randOdd len v) s

/-- One round of MRTEST after its draw (R166): `ATTEMPTS` counts it, and the first round that fails ends the test. -/
def mrtestRound (n left a : Nat) (s : State) : State :=
  let t := countAttempt s
  if roundPasses n a then
    (if left ≤ 1 then finishBool true t else placeDraw (.mrtest n (left - 1)) t)
  else finishBool false t

/-- MRTEST after an answer (R166, R170). -/
def mrtestAnswer (n left a : Nat) (s : State) : State :=
  rangeAnswer 2 (n - 2) a s (mrtestRound n left a s)

/-- The head of the PRIMEGEN loop (R201, R205): the next attempt, or exhaustion. -/
def primegenAttempt (rd : Reg) (len : Nat) (s : State) : State :=
  if s.attempts.toNat < s.ctx.limit.toNat then placeDraw (.primegenCandidate rd len) (countAttempt s)
  else raise (.primeSearchExhausted s.attempts) s

/-- `Pred(c)` with the latched `PREDCTL` and the `p` file (R196). -/
def State.pred (s : State) (c : Nat) : Bool := predicate s.ctx.predctl s.pe s.po s.pg s.pf c

/-- PRIMEGEN with a candidate that Miller-Rabin has passed: the predicate decides (R201, R204). -/
def primegenJudge (rd : Reg) (len c : Nat) (s : State) : State :=
  if s.pred c then finishValue rd c s else primegenAttempt rd len s

/-- Miller-Rabin on a PRIMEGEN candidate up to its first draw (R166, R201). -/
def primegenTest (rd : Reg) (len c : Nat) (s : State) : State :=
  match primeLookup c with
  | some true => primegenJudge rd len c s
  | some false => primegenAttempt rd len s
  | none => placeDraw (.primegenBase rd len c s.ctx.rounds.toNat) s

/-- PRIMEGEN with a candidate: the filter, if enabled, then Miller-Rabin (R201, R203, R204). -/
def primegenFilter (rd : Reg) (len c : Nat) (s : State) : State :=
  if s.ctx.sieveEn && !trialDivPass s.par.sieve c then primegenAttempt rd len s else primegenTest rd len c s

/-- PRIMEGEN after the draw of a candidate (R186, R201). -/
def primegenCandidate (rd : Reg) (len v : Nat) (s : State) : State := primegenFilter rd len (randOdd len v) s

/-- One Miller-Rabin round inside PRIMEGEN; `ATTEMPTS` does not change (R204). -/
def primegenRound (rd : Reg) (len c left a : Nat) (s : State) : State :=
  if roundPasses c a then
    (if left ≤ 1 then primegenJudge rd len c s else placeDraw (.primegenBase rd len c (left - 1)) s)
  else primegenAttempt rd len s

/-- PRIMEGEN after the draw of a base (R201, R170). -/
def primegenBase (rd : Reg) (len c left a : Nat) (s : State) : State :=
  rangeAnswer 2 (c - 2) a s (primegenRound rd len c left a s)

/-- `FactorTest` or `ScanTest` as the mode says, for `g` inside `[2, p - 1]` (R217, R219, R220). -/
def groupTest (mode : Mode) (g p : Nat) (s : State) : Bool :=
  if mode = Mode.scan then scanTest g p
  else if mode = Mode.factors then factorTest g p s.factors
  else factorTest g p [2, (p - 1) / 2]

/-- `IsGen(g, p, mode)` (R217): false outside `[2, p - 1]` (R223). -/
def isGen (mode : Mode) (g p : Nat) (s : State) : Bool :=
  if g < 2 ∨ p - 1 < g then false else groupTest mode g p s

/-- The head of the GENFIND loop (R224, R225): the next attempt, or exhaustion. -/
def genfindAttempt (mode : Mode) (rd : Reg) (p : Nat) (s : State) : State :=
  if s.attempts.toNat < s.ctx.limit.toNat then placeDraw (.genfind mode rd p) (countAttempt s)
  else raise (.generatorSearchExhausted s.attempts) s

/-- GENFIND with a candidate generator (R224). -/
def genfindTry (mode : Mode) (rd : Reg) (p g : Nat) (s : State) : State :=
  if isGen mode g p s then finishValue rd g s else genfindAttempt mode rd p s

/-- GENFIND after an answer (R224). -/
def genfindAnswer (mode : Mode) (rd : Reg) (p g : Nat) (s : State) : State :=
  rangeAnswer 2 (p - 1) g s (genfindTry mode rd p g s)

/-- The engine takes the port's word for the draw it stands at (R80). -/
def resume (w : Wait) (v : Nat) (s : State) : State :=
  match w with
  | .randodd rd len => randoddAnswer rd len v s
  | .mrtest n left => mrtestAnswer n left v s
  | .primegenCandidate rd len => primegenCandidate rd len v s
  | .primegenBase rd len c left => primegenBase rd len c left v s
  | .genfind mode rd p => genfindAnswer mode rd p v s

/-- The draws of a command served by the answers that come next, in order (R80): while the engine stands at a draw and
the next input is an answer, the engine takes it and goes on; what is left of the inputs stays. -/
def serve (s : State) : List Input → State
  | .answer v :: rest =>
    match s.engine with
    | .waiting w => serve (resume w (portWord s v) s) rest
    | .idle => { s with inputs := .answer v :: rest }
    | .accepted => { s with inputs := .answer v :: rest }
    | .done => { s with inputs := .answer v :: rest }
    | .fault => { s with inputs := .answer v :: rest }
  | rest => { s with inputs := rest }

/-- An answer arrives: a waiting engine takes it; with no request outstanding it is dropped (R80, R282). -/
def takeAnswer (v : Nat) (s : State) : State :=
  match s.engine with
  | .waiting w => serve (resume w (portWord s v) s) s.inputs
  | .idle => s
  | .accepted => s
  | .done => s
  | .fault => s

end Sys2Proof.Machine
end

