-- ==== Sys2Proof/Machine/Generator.lean ====
section
/-! DEFINITION. Unit 6, the multiplicative-group generator finder: ISGEN, GENFIND (45_generator.md). The tests and what
GENFIND does with its draws are in Draw.lean. -/

namespace Sys2Proof.Machine

/-- The checks of FACTORS mode in `CheckGroup` (R217): the count, then the factors, lowest index first. -/
def checkFactors (p : Nat) (s : State) : Option ParamCause :=
  if s.ctx.fcnt.toNat = 0 ∨ 8 < s.ctx.fcnt.toNat then some .badFactorCount
  else (badFactorFrom p 0 s.factors).map .badFactor

/-- `CheckGroup(p, mode)` (R217): the first cause that holds, none if the group is acceptable. -/
def checkGroup (mode : Mode) (p : Nat) (s : State) : Option ParamCause :=
  if p < 3 then some .badGroupModulus
  else if mode = Mode.factors then checkFactors p s
  else if mode = Mode.safe ∧ (p % 2 = 0 ∨ p < 5) then some .badSafeModulus
  else none

/-- ISGEN with a legal mode (R216): `CheckGroup`, then `IsGen`. -/
def isgenRun (mode : Mode) (s : State) : State :=
  match checkGroup mode s.src3 s with
  | some cause => raiseParam cause s
  | none => finishBool (isGen mode s.src1 s.src3 s) s

/-- ISGEN (R216 to R223). The reserved mode is no command: `IllegalCommand(3)` (R98). -/
def execIsgen (mode : Mode) (_rs1 _rs3 : Reg) (s : State) : Host.Outcome State Fault Refusal :=
  .next (if mode = Mode.reserved then raise (.illegalCommand .reservedMode) s else isgenRun mode s)

/-- GENFIND with a legal mode up to its first draw or its end (R224): `CheckGroup` once, then the loop. -/
def genfindStart (mode : Mode) (rd : Reg) (s : State) : State :=
  match checkGroup mode s.src3 s with
  | some cause => raiseParam cause s
  | none => genfindAttempt mode rd s.src3 s

/-- GENFIND (R224 to R227). The reserved mode is no command: `IllegalCommand(3)` (R98). -/
def execGenfind (mode : Mode) (rd _rs3 : Reg) (s : State) : Host.Outcome State Fault Refusal :=
  .next <|
    if mode = Mode.reserved then raise (.illegalCommand .reservedMode) s
    else serve (genfindStart mode rd s) s.inputs

end Sys2Proof.Machine
end

