-- ==== Sys2Proof/Machine/MillerRabin.lean ====
section
/-! DEFINITION. Unit 4, the Miller-Rabin primality test: MRTEST (43_miller_rabin.md). Its rounds are in Draw.lean. -/

namespace Sys2Proof.Machine

/-- MRTEST up to its first draw or its end (R166): the round count first (R167), then the lookup (R168), then the draw
of the first base. -/
def mrtestStart (s : State) : State :=
  if s.ctx.rounds = 0#32 then raiseParam .zeroRounds s
  else
    match primeLookup s.src1 with
    | some b => finishBool b s
    | none => placeDraw (.mrtest s.src1 s.ctx.rounds.toNat) s

/-- MRTEST (R165 to R173): its start, and its draws as far as answers come next. -/
def execMrtest (_rs1 : Reg) (s : State) : Host.Outcome State Fault Refusal :=
  .next (serve (mrtestStart s) s.inputs)

end Sys2Proof.Machine
end

