-- ==== Sys2Proof/Machine/ModExp.lean ====
section
/-! DEFINITION. Unit 2, the modular exponentiation engine: MODEXP (41_modexp.md). -/

namespace Sys2Proof.Machine

/-- MODEXP (R140 to R144): `(base ^ e) mod n` by square-and-multiply; a zero modulus is `InvalidParameter(1)`. -/
def execModexp (rd _rs1 _rs2 _rs3 : Reg) (s : State) : Host.Outcome State Fault Refusal :=
  .next <|
    if s.src3 = 0 then raiseParam .zeroModulus s
    else finishValue rd (powMod s.src1 s.src2 s.src3) s

end Sys2Proof.Machine
end

