-- ==== Sys2Proof/Machine/Multiplier.lean ====
section
/-! DEFINITION. Unit 1, the modular and Montgomery multiplier: MODMUL, MONTMUL, MONTR2 (40_montmul.md). The source
operands of a command are the latched copies (R47), so the source fields of the instruction are not looked at again. -/

namespace Sys2Proof.Machine

/-- MODMUL (R121, R122): `(a * b) mod n`; a zero modulus is `InvalidParameter(1)`. -/
def execModmul (rd _rs1 _rs2 _rs3 : Reg) (s : State) : Host.Outcome State Fault Refusal :=
  .next <|
    if s.src3 = 0 then raiseParam .zeroModulus s
    else finishValue rd (s.src1 * s.src2 % s.src3) s

/-- The two checks of MONTMUL and MONTR2, the zero test first (R124, R127, R128). -/
def montCheck (n : Nat) : Option ParamCause :=
  if n = 0 then some .zeroModulus else if n % 2 = 0 then some .evenModulus else none

/-- MONTMUL (R124, R125): `(a * b * Rinv(n)) mod n` for odd `n`. -/
def execMontmul (rd _rs1 _rs2 _rs3 : Reg) (s : State) : Host.Outcome State Fault Refusal :=
  .next <|
    match montCheck s.src3 with
    | some cause => raiseParam cause s
    | none => finishValue rd (montProd s.width s.src1 s.src2 s.src3) s

/-- MONTR2 (R128, R129): `2^(2 W) mod n` for odd `n`. -/
def execMontr2 (rd _rs3 : Reg) (s : State) : Host.Outcome State Fault Refusal :=
  .next <|
    match montCheck s.src3 with
    | some cause => raiseParam cause s
    | none => finishValue rd (2 ^ (2 * s.width) % s.src3) s

end Sys2Proof.Machine
end

