-- ==== Sys2Proof/Machine/PrimeGen.lean ====
section
/-! DEFINITION. Unit 5, the candidate and prime generator with its trial-division filter: RANDODD, TRIALDIV, PRIMEGEN
(44_primegen.md). What they do with their draws is in Draw.lean. -/

namespace Sys2Proof.Machine

/-- RANDODD up to its draw (R186, R187). -/
def randoddStart (rd : Reg) (s : State) : State :=
  if s.ctx.bits.toNat = 0 ∨ s.width < s.ctx.bits.toNat then raiseParam .badBitLength s
  else placeDraw (.randodd rd s.ctx.bits.toNat) s

/-- RANDODD (R186 to R188). -/
def execRandodd (rd : Reg) (s : State) : Host.Outcome State Fault Refusal :=
  .next (serve (randoddStart rd s) s.inputs)

/-- TRIALDIV (R192, R193): the filter as a command; `CTRL.SIEVE_EN` is not consulted. -/
def execTrialdiv (_rs1 : Reg) (s : State) : Host.Outcome State Fault Refusal :=
  .next (finishBool (trialDivPass s.par.sieve s.src1) s)

/-- PRIMEGEN up to its first draw or its end (R201): the start's bit length, then the round count, then the loop. -/
def primegenStart (rd : Reg) (s : State) : State :=
  if bitlen s.src1 = 0 then raiseParam .badBitLength s
  else if s.ctx.rounds = 0#32 then raiseParam .zeroRounds s
  else primegenAttempt rd (bitlen s.src1) s

/-- PRIMEGEN (R201 to R208). -/
def execPrimegen (rd _rs1 : Reg) (s : State) : Host.Outcome State Fault Refusal :=
  .next (serve (primegenStart rd s) s.inputs)

end Sys2Proof.Machine
end

