-- ==== Sys2Proof/Machine/Dispatch.lean ====
section
/-! DEFINITION. `exec`: the meaning of a command that has been accepted (R46) and decoded (R95), one arm per
constructor of `Instr`. -/

namespace Sys2Proof.Machine

def exec (i : Instr) (s : State) : Host.Outcome State Fault Refusal :=
  match i with
  | .modmul rd rs1 rs2 rs3 => Sys2Proof.Machine.execModmul rd rs1 rs2 rs3 s
  | .montmul rd rs1 rs2 rs3 => Sys2Proof.Machine.execMontmul rd rs1 rs2 rs3 s
  | .montr2 rd rs3 => Sys2Proof.Machine.execMontr2 rd rs3 s
  | .modexp rd rs1 rs2 rs3 => Sys2Proof.Machine.execModexp rd rs1 rs2 rs3 s
  | .modinv rd rs1 rs3 => Sys2Proof.Machine.execModinv rd rs1 rs3 s
  | .gcd rd rs1 rs2 => Sys2Proof.Machine.execGcd rd rs1 rs2 s
  | .mrtest rs1 => Sys2Proof.Machine.execMrtest rs1 s
  | .randodd rd => Sys2Proof.Machine.execRandodd rd s
  | .trialdiv rs1 => Sys2Proof.Machine.execTrialdiv rs1 s
  | .primegen rd rs1 => Sys2Proof.Machine.execPrimegen rd rs1 s
  | .isgen mode rs1 rs3 => Sys2Proof.Machine.execIsgen mode rs1 rs3 s
  | .genfind mode rd rs3 => Sys2Proof.Machine.execGenfind mode rd rs3 s

end Sys2Proof.Machine
end

