-- ==== Sys2Proof/Machine/Engine.lean ====
section
/-! DEFINITION. The engine's step and what each input does (R11, R48, R80, R253, R280). -/

namespace Sys2Proof.Machine

/-- An accepted command begins (R95, R243): its latched word is decoded; a command is executed, any other word ends in
`IllegalCommand`. -/
def runCommand (s : State) : Host.Outcome State Fault Refusal :=
  match decode s.ctx.cw with
  | .ok i => exec i s
  | .error why => .next (raise (.illegalCommand why) s)

/-- The engine's step: it moves only when a command is accepted and not begun; at an unanswered draw it takes no step
(R49), and in IDLE, DONE and FAULT it does nothing (R267). -/
def tick (s : State) : Host.Outcome State Fault Refusal :=
  match s.engine with
  | .idle => .next s
  | .accepted => runCommand s
  | .waiting _ => .next s
  | .done => .next s
  | .fault => .next s

/-- A host access and the engine's step or an answer in one cycle (R45, R253): the access first, so that a pending bit the
end sets stays set and a reset loses the end. -/
def accessWithStep (a : Access) (ans : Option Nat) (s : State) : Host.Outcome State Fault Refusal :=
  match busAccess a s with
  | .next t =>
    match ans with
    | none => tick t
    | some v => .next (takeAnswer v t)
  | .fault r => .fault r
  | .refused r => .refused r

/-- What one input does to the state it has been taken from. -/
def handle (inp : Input) (s : State) : Host.Outcome State Fault Refusal :=
  match inp with
  | .tick => tick s
  | .access a => busAccess a s
  | .answer v => .next (takeAnswer v s)
  | .lateAnswer _ => .next s
  | .sameCycle a ans => accessWithStep a ans s
  | .rstN level => .next (driveResetPin level s)

/-- A command word placed where the next step runs it: the word is accepted (R46), `rst_n` is high, and the engine is the
next to move. It stands for the host's write to `CMD` (R35, R103). -/
def placeCommand (cw : Word) (s : State) : State :=
  { accept cw s with inputs := .tick :: s.inputs, rstLow := false }

end Sys2Proof.Machine
end

