-- ==== Sys2Proof/Machine/Step.lean ====
section
/-! DEFINITION. `step`: one input is taken from the list of what comes next and handled; with nothing to come the engine
moves. There is no program counter and no fetch (R25); a command comes by a write to `CMD`. -/

namespace Sys2Proof.Machine

/-- One step of the machine. -/
def step (s : State) : Host.Outcome State Fault Refusal :=
  match s.inputs with
  | [] => tick s
  | inp :: rest => handle inp { s with inputs := rest }

/-- `s` with the command whose word is the low `nbits` bits of `w` accepted, so that the very next step runs it
(log entry 3). -/
def State.withFetchWord (s : State) (nbits w : Nat) : State := placeCommand (BitVec.ofNat 32 (w % 2 ^ nbits)) s

end Sys2Proof.Machine
end

