-- ==== Sys2Proof/Safety.lean ====
section
/-! DEFINITION. What holds of every state a run of MMCORE can be in: no value outside `W` bits (R7), flags and fault
registers that agree (R26, R27, R36, R37), a running command whose latched sources are what the registers hold (R46,
R72), a draw that its rule allows (R79), and the reset state while `rst_n` is low (R280). -/

namespace Sys2Proof.Machine

/-- Every operand register and every latched source holds a value of `W` bits (R7, R21, R23, R24). -/
structure State.OperandsFit (s : State) : Prop where
  x : ∀ i : Fin 16, s.x[i] < s.par.radix
  p : ∀ k : Fin 4, s.p[k] < s.par.radix
  f : ∀ k : Fin 8, s.f[k] < s.par.radix
  src1 : s.src1 < s.par.radix
  src2 : s.src2 < s.par.radix
  src3 : s.src3 < s.par.radix

/-- The flags and the fault registers agree: `BOOL` only in DONE (R27), a code exactly in FAULT (R36), no detail
without a code (R37). -/
structure State.FlagsAgree (s : State) : Prop where
  bool : s.boolFlag = true → s.engine = .done
  err : s.err ≠ 0#8 ↔ s.engine = .fault
  info : s.err = 0#8 → s.errInfo = 0#32

/-- The latched copies of a running command are what `CMD` and the registers hold: nothing can write them while BUSY
(R46, R47, R72, R73). -/
structure State.Latched (s : State) : Prop where
  cw : s.ctx.cw = s.cmd
  src1 : s.src1 = s.reg (fieldRs1 s.cmd)
  src2 : s.src2 = s.reg (fieldRs2 s.cmd)
  src3 : s.src3 = s.reg (fieldRs3 s.cmd)

/-- `ATTEMPTS` is between 1 and the latched `LIMIT` (R201, R224: an attempt is counted before its draw). -/
def State.attemptsInBudget (s : State) : Prop :=
  1 ≤ s.attempts.toNat ∧ s.attempts.toNat ≤ s.ctx.limit.toNat

/-- The draw a command stands at is one its rule makes: RANDODD (R186), MRTEST (R166), PRIMEGEN (R201), GENFIND
(R224). -/
def Wait.Sound (s : State) : Wait → Prop
  | .randodd rd len =>
    decode s.cmd = .ok (.randodd rd) ∧ len = s.ctx.bits.toNat ∧ 1 ≤ len ∧ len ≤ s.width ∧ s.attempts = 0#32
  | .mrtest n left =>
    (∃ rs1, decode s.cmd = .ok (.mrtest rs1)) ∧ n = s.src1 ∧ primeLookup n = none ∧ 1 ≤ left
      ∧ s.attempts.toNat + left = s.ctx.rounds.toNat
  | .primegenCandidate rd len =>
    (∃ rs1, decode s.cmd = .ok (.primegen rd rs1)) ∧ len = bitlen s.src1 ∧ 1 ≤ len ∧ s.ctx.rounds ≠ 0#32
      ∧ s.attemptsInBudget
  | .primegenBase rd len c left =>
    (∃ rs1, decode s.cmd = .ok (.primegen rd rs1)) ∧ len = bitlen s.src1 ∧ bitlen c = len ∧ primeLookup c = none
      ∧ (s.ctx.sieveEn = true → trialDivPass s.par.sieve c = true) ∧ 1 ≤ left ∧ left ≤ s.ctx.rounds.toNat
      ∧ s.attemptsInBudget
  | .genfind mode rd p =>
    (∃ rs3, decode s.cmd = .ok (.genfind mode rd rs3)) ∧ p = s.src3 ∧ checkGroup mode p s = none
      ∧ s.attemptsInBudget

/-- The invariant of the machine. -/
structure State.Inv (s : State) : Prop where
  operandsFit : s.OperandsFit
  flagsAgree : s.FlagsAgree
  latched : s.busy = true → s.Latched
  started : s.engine = .accepted → s.attempts = 0#32
  drawSound : ∀ w, s.engine = .waiting w → w.Sound s
  resetHeld : s.rstLow = true → s = { resetAll s with rstLow := true }

end Sys2Proof.Machine
end

