-- ==== Sys2Proof/Certificates/Slice0/Obligations.lean ====
section
/-! DEFINITION. The statements for the provers. A command's statement speaks of `exec` in the state right after the
acceptance of its word (R46), where the latched sources are the registers the word names; an expected next state is
written out as a record update of that state, so it is a frame as well: every field not named is unchanged. There is no
memory besides the window (R77), whose words are the fields `x`, `p`, `f` and the CSR fields. -/

open Sys2Proof Sys2Proof.Machine

/-! ## The spec's conditions, stated without the model's own loops -/

/-- One Miller-Rabin round of base `a` passes, stated without the loop (R173). -/
def Sys2Proof.Machine.PassesRound (n a : Nat) : Prop :=
  ∃ e d, n - 1 = 2 ^ e * d ∧ d % 2 = 1 ∧ (a ^ d % n = 1 ∨ ∃ r, r < e ∧ a ^ (2 ^ r * d) % n = n - 1)

/-- `a` is a base a round may draw for `n` (R170). -/
def Sys2Proof.Machine.IsBase (n a : Nat) : Prop := 2 ≤ a ∧ a ≤ n - 2

/-- Miller-Rabin answers true for `n` having drawn exactly `bases` (R166, R168, R172). -/
def Sys2Proof.Machine.MrAccepts (rounds n : Nat) (bases : List Nat) : Prop :=
  ((n = 2 ∨ n = 3) ∧ bases = []) ∨
    (5 ≤ n ∧ n % 2 = 1 ∧ bases.length = rounds ∧ ∀ a ∈ bases, IsBase n a ∧ PassesRound n a)

/-- Miller-Rabin answers false for `n` having drawn exactly `bases`: the lookup, or the last base is the first that does
not pass (R166, R168, R172). -/
def Sys2Proof.Machine.MrRejects (rounds n : Nat) (bases : List Nat) : Prop :=
  ((n ≤ 1 ∨ (2 < n ∧ n % 2 = 0)) ∧ bases = []) ∨
    (5 ≤ n ∧ n % 2 = 1 ∧ ∃ pre b, bases = pre ++ [b] ∧ pre.length < rounds ∧
      (∀ a ∈ pre, IsBase n a ∧ PassesRound n a) ∧ IsBase n b ∧ ¬ PassesRound n b)

/-- A listed prime properly divides `c` (R191). -/
def Sys2Proof.Machine.SieveRejects (sieve : List Nat) (c : Nat) : Prop := ∃ q ∈ sieve, c % q = 0 ∧ c ≠ q

/-- The predicate of R196 with `PREDCTL` and the `p` file of `s`. -/
def Sys2Proof.Machine.MeetsPredicate (s : State) (c : Nat) : Prop :=
  (s.predctl.getLsbD 0 = true → Nat.gcd c s.p[0] = 1) ∧
  (s.predctl.getLsbD 1 = true → Nat.gcd (c - 1) s.p[0] = 1) ∧
  (s.predctl.getLsbD 2 = true → (s.p[2] : Int) ≤ |(c : Int) - (s.p[1] : Int)|) ∧
  (s.predctl.getLsbD 3 = true → s.p[3] ≤ c)

/-- One PRIMEGEN attempt that draws exactly `draws` and is rejected: by the filter, by Miller-Rabin, or by the predicate
(R201, R203, R204). -/
def Sys2Proof.Machine.AttemptRejected (s : State) (len : Nat) (draws : List Nat) : Prop :=
  ∃ v bases, draws = v :: bases ∧
    ((s.sieveEn = true ∧ SieveRejects s.par.sieve (randOdd len v) ∧ bases = []) ∨
      ((s.sieveEn = true → ¬ SieveRejects s.par.sieve (randOdd len v)) ∧
        (MrRejects s.rounds.toNat (randOdd len v) bases ∨
          (MrAccepts s.rounds.toNat (randOdd len v) bases ∧ ¬ MeetsPredicate s (randOdd len v)))))

/-- One PRIMEGEN attempt that draws exactly `draws` and accepts `c` (R201, R204). -/
def Sys2Proof.Machine.AttemptAccepted (s : State) (len c : Nat) (draws : List Nat) : Prop :=
  ∃ v bases, draws = v :: bases ∧ c = randOdd len v ∧
    (s.sieveEn = true → ¬ SieveRejects s.par.sieve c) ∧ MrAccepts s.rounds.toNat c bases ∧ MeetsPredicate s c

/-- `CheckGroup` finds nothing wrong (R217). -/
def Sys2Proof.Machine.GroupAccepted (mode : Mode) (p : Nat) (s : State) : Prop :=
  3 ≤ p ∧ mode ≠ 3#2 ∧
  (mode = 1#2 → 1 ≤ s.fcnt.toNat ∧ s.fcnt.toNat ≤ 8 ∧
    ∀ i : Fin 8, i.val < s.fcnt.toNat → 2 ≤ s.f[i] ∧ s.f[i] ∣ p - 1) ∧
  (mode = 2#2 → p % 2 = 1 ∧ 5 ≤ p)

/-- `IsGen(g, p, mode)` as the formulas of R217 to R220 give it. -/
def Sys2Proof.Machine.PassesGenTest (mode : Mode) (g p : Nat) (s : State) : Prop :=
  2 ≤ g ∧ g ≤ p - 1 ∧
  (mode = 0#2 → ∀ k, 1 ≤ k → k ≤ p - 2 → g ^ k % p ≠ 1) ∧
  (mode = 1#2 → ∀ i : Fin 8, i.val < s.fcnt.toNat → g ^ ((p - 1) / s.f[i]) % p ≠ 1) ∧
  (mode = 2#2 → g ^ ((p - 1) / 2) % p ≠ 1 ∧ g ^ 2 % p ≠ 1)

/-- `vs` as answers of the entropy source, in order, and then `rest`. -/
def Sys2Proof.Machine.answersThen (vs : List Nat) (rest : List Input) : List Input := vs.map Input.answer ++ rest

/-- The answer to an errored access: the error response, and for a read data that is free (R70). -/
def Sys2Proof.Machine.errored (a : Access) (s : State) : State :=
  match a.write with
  | some _ => { s with resp := some .writeError }
  | none =>
    { s with
      resp := some (.readError (Config.erroredReadData s.erroredReads))
      erroredReads := s.erroredReads + 1 }

/-- The twelve opcodes of R94, each with the bits of its must-be-zero fields: column "mask" less the opcode's own bits. -/
def Sys2Proof.Machine.mustBeZeroBits : List (BitVec 8 × Word) :=
  [(0x10#8, 0xFF000000#32), (0x11#8, 0xFF000000#32), (0x12#8, 0xFF0FF000#32), (0x20#8, 0xFF000000#32),
    (0x30#8, 0xFF0F0000#32), (0x31#8, 0xFFF00000#32), (0x40#8, 0xFFFF0F00#32), (0x50#8, 0xFFFFF000#32),
    (0x51#8, 0xFFFF0F00#32), (0x52#8, 0xFFFF0000#32), (0x60#8, 0xFC0F0F00#32), (0x61#8, 0xFC0FF000#32)]

/-- The accepted word `cw` after the fault `IllegalCommand(n)` (R242, R243, R247): `CMD` holds the word. -/
def Sys2Proof.Machine.illegalEnd (cw n : Word) (s : State) : State :=
  { accept cw s with err := 0x10#8, errInfo := n, engine := .fault, irqStat := s.irqStat ||| 2#2 }

/-- The state with its `RW` configuration CSRs replaced. -/
def Sys2Proof.Machine.reconfigured (rounds limit bits : Word) (predctl fcnt : BitVec 4) (sieveEn : Bool) (s : State) :
    State :=
  { s with rounds := rounds, limit := limit, bits := bits, predctl := predctl, fcnt := fcnt, sieveEn := sieveEn }

/-! ## Encoding -/

/-- The decoder gives back every command of the set from its word. -/
def Obligations.DecodeEncodeRoundTrip : Prop :=
  ∀ i : Instr, i.wellFormed = true → decode (encode i) = .ok i

/-- A word that decodes is the encoding of a well-formed command: no other word is accepted for it (R92, R95). -/
def Obligations.DecodedWordIsItsEncoding : Prop :=
  ∀ (cw : Word) (i : Instr), decode cw = .ok i → i.wellFormed = true ∧ encode i = cw

/-- Words of section 2.7 of the vectors, one of each unit, decode to their commands. -/
def Obligations.SampleWordsDecode : Prop :=
  decode 0x00210910#32 = .ok (.modmul 9#4 0#4 1#4 2#4) ∧
  decode 0x00210320#32 = .ok (.modexp 3#4 0#4 1#4 2#4) ∧
  decode 0x00009A30#32 = .ok (.modinv 10#4 9#4 0#4) ∧
  decode 0x00002040#32 = .ok (.mrtest 2#4) ∧
  decode 0x0000EF52#32 = .ok (.primegen 15#4 14#4) ∧
  decode 0x02200461#32 = .ok (.genfind 2#2 4#4 2#4)

/-- R96, R97, R243: a word that is the encoding of no command ends in `IllegalCommand`, with the finding of R95's first
check that fails in `ERRINFO` and `CMD` holding the word: 1 for an opcode that is not in the table, 2 for a must-be-zero
field of a listed opcode that is not 0, whatever the mode, 3 for mode 3; the all-zero and all-one words have finding 1. -/
def Obligations.IllegalWordEndsInFault : Prop :=
  (∀ (cw : Word) (s : State), (∀ i : Instr, i.wellFormed = true → encode i ≠ cw) →
    ∃ n : Word, (n = 1#32 ∨ n = 2#32 ∨ n = 3#32) ∧ tick (accept cw s) = .next (illegalEnd cw n s)) ∧
  (∀ (cw : Word) (s : State), (∀ row ∈ mustBeZeroBits, cw.extractLsb' 0 8 ≠ row.1) →
    tick (accept cw s) = .next (illegalEnd cw 1#32 s)) ∧
  (∀ (cw : Word) (s : State), ∀ row ∈ mustBeZeroBits, cw.extractLsb' 0 8 = row.1 → cw &&& row.2 ≠ 0#32 →
    tick (accept cw s) = .next (illegalEnd cw 2#32 s)) ∧
  (∀ (cw : Word) (s : State), ∀ row ∈ mustBeZeroBits, row.1 = 0x60#8 ∨ row.1 = 0x61#8 →
    cw.extractLsb' 0 8 = row.1 → cw &&& row.2 = 0#32 → cw.extractLsb' 24 2 = 3#2 →
    tick (accept cw s) = .next (illegalEnd cw 3#32 s)) ∧
  (∀ i : Instr, i.wellFormed = true → encode i ≠ 0x00000000#32 ∧ encode i ≠ 0xFFFFFFFF#32) ∧
  (∀ (cw : Word) (s : State), cw = 0x00000000#32 ∨ cw = 0xFFFFFFFF#32 →
    tick (accept cw s) = .next (illegalEnd cw 1#32 s))

/-! ## Steps, acceptance, the engine -/

/-- A step with the engine to move runs the decoded command: it is `exec` of it, with the input that let the engine move
taken away; a word that does not decode ends in the faulting end of `IllegalCommand`. -/
def Obligations.StepRunsDecodedCommand : Prop :=
  ∀ (s : State) (rest : List Input), s.engine = .accepted →
    (s.inputs = .tick :: rest ∨ (s.inputs = [] ∧ rest = [])) →
    (∀ i, decode s.ctx.cw = .ok i → step s = exec i { s with inputs := rest }) ∧
    (∀ why, decode s.ctx.cw = .error why →
      step s = .next (raise (.illegalCommand why) { s with inputs := rest }))

/-- The host's write of a word to `CMD` while not BUSY is acceptance: the whole next state (R46). -/
def Obligations.CmdWriteAccepts : Prop :=
  ∀ (s : State) (cw : Word) (rest : List Input), s.rstLow = false → s.busy = false →
    s.inputs = .access (memWrite 0x010 cw) :: rest →
    step s = .next
      { s with
        inputs := rest, resp := some .written, cmd := cw, engine := .accepted, boolFlag := false, err := 0#8,
        errInfo := 0#32, attempts := 0#32,
        ctx :=
          { cw := cw, src1 := s.reg (cw.extractLsb' 12 4), src2 := s.reg (cw.extractLsb' 16 4),
            src3 := s.reg (cw.extractLsb' 20 4), rounds := s.rounds, limit := s.limit, bits := s.bits,
            predctl := s.predctl, fcnt := s.fcnt, sieveEn := s.sieveEn } }

/-- R73: a write to `CMD` while BUSY gets a bus error and has no effect. -/
def Obligations.CmdWriteWhileBusyIsRefused : Prop :=
  ∀ (s : State) (cw : Word) (rest : List Input), s.rstLow = false → s.busy = true →
    s.inputs = .access (memWrite 0x010 cw) :: rest →
    step s = .next { s with inputs := rest, resp := some .writeError }

/-- BUSY is entered by nothing but a write to `CMD`, and left by nothing but the command's end or a reset (R26). -/
def Obligations.BusyEnteredAndLeft : Prop :=
  ∀ s t : State, step s = .next t →
    (s.busy = false → t.busy = true →
      ∃ (a : Access) (rest : List Input), a.offset = 0x010 ∧ a.write.isSome = true ∧
        (s.inputs = .access a :: rest ∨ ∃ ans, s.inputs = .sameCycle a ans :: rest)) ∧
    (s.busy = true → t.busy = false →
      t.engine = .done ∨ t.engine = .fault ∨
        ∃ (rest : List Input) (r : Option BusResponse) (low : Bool),
          t = { State.resetFor s.par with
                inputs := rest, resp := r, rstLow := low, erroredReads := s.erroredReads })

/-- `STATUS` (R34) as the host reads it in each of the engine's states (R26): no other combination of BUSY, DONE and
FAULT occurs, bits 31:5 read 0, and a write gets a bus error. -/
def Obligations.StatusShowsTheEngine : Prop :=
  ∀ (s : State) (d : Word), s.rstLow = false →
    busAccess (memRead 0x00C) s = .next
      { s with
        resp := some (.data ((match s.engine with
          | .idle => 0x00#32
          | .accepted => 0x01#32
          | .waiting _ => 0x11#32
          | .done => 0x02#32
          | .fault => 0x04#32) + (if s.boolFlag then 0x08#32 else 0x00#32))) } ∧
    busAccess (memWrite 0x00C d) s = .next { s with resp := some .writeError }

/-! ## Unit 1 -/

/-- MODMUL (R121): its word, its result for every modulus but 0, its fault for modulus 0. -/
def Obligations.ModmulResult : Prop :=
  ∀ (rd rs1 rs2 rs3 : Reg) (s : State),
    (encode (.modmul rd rs1 rs2 rs3)).toNat =
      0x10 + rd.toNat * 2 ^ 8 + rs1.toNat * 2 ^ 12 + rs2.toNat * 2 ^ 16 + rs3.toNat * 2 ^ 20 ∧
    (s.reg rs3 = 0 →
      exec (.modmul rd rs1 rs2 rs3) (accept (encode (.modmul rd rs1 rs2 rs3)) s) = .next
        { accept (encode (.modmul rd rs1 rs2 rs3)) s with
          err := 0x01#8, errInfo := 1#32, engine := .fault, irqStat := s.irqStat ||| 2#2 }) ∧
    (s.reg rs3 ≠ 0 →
      exec (.modmul rd rs1 rs2 rs3) (accept (encode (.modmul rd rs1 rs2 rs3)) s) = .next
        { accept (encode (.modmul rd rs1 rs2 rs3)) s with
          x := setReg s.x rd (s.reg rs1 * s.reg rs2 % s.reg rs3), engine := .done,
          irqStat := s.irqStat ||| 1#2 })

/-- MONTMUL (R123, R124): its word; for odd `n` the result is `(a * b * Rinv) mod n` with the one `Rinv` below `n` that inverts
`2^W`; modulus 0 and even moduli fault, zero first. -/
def Obligations.MontmulResult : Prop :=
  ∀ (rd rs1 rs2 rs3 : Reg) (s : State),
    (encode (.montmul rd rs1 rs2 rs3)).toNat =
      0x11 + rd.toNat * 2 ^ 8 + rs1.toNat * 2 ^ 12 + rs2.toNat * 2 ^ 16 + rs3.toNat * 2 ^ 20 ∧
    (s.reg rs3 = 0 →
      exec (.montmul rd rs1 rs2 rs3) (accept (encode (.montmul rd rs1 rs2 rs3)) s) = .next
        { accept (encode (.montmul rd rs1 rs2 rs3)) s with
          err := 0x01#8, errInfo := 1#32, engine := .fault, irqStat := s.irqStat ||| 2#2 }) ∧
    (s.reg rs3 ≠ 0 → s.reg rs3 % 2 = 0 →
      exec (.montmul rd rs1 rs2 rs3) (accept (encode (.montmul rd rs1 rs2 rs3)) s) = .next
        { accept (encode (.montmul rd rs1 rs2 rs3)) s with
          err := 0x01#8, errInfo := 2#32, engine := .fault, irqStat := s.irqStat ||| 2#2 }) ∧
    (s.reg rs3 % 2 = 1 →
      ∃ rinv, rinv < s.reg rs3 ∧ 2 ^ s.par.width * rinv % s.reg rs3 = 1 % s.reg rs3 ∧
        (∀ r, r < s.reg rs3 → 2 ^ s.par.width * r % s.reg rs3 = 1 % s.reg rs3 → r = rinv) ∧
        exec (.montmul rd rs1 rs2 rs3) (accept (encode (.montmul rd rs1 rs2 rs3)) s) = .next
          { accept (encode (.montmul rd rs1 rs2 rs3)) s with
            x := setReg s.x rd (s.reg rs1 * s.reg rs2 * rinv % s.reg rs3), engine := .done,
            irqStat := s.irqStat ||| 1#2 })

/-- MONTR2 (R128): its word; `2^(2 W) mod n` for odd `n`, and the faults of MONTMUL. -/
def Obligations.Montr2Result : Prop :=
  ∀ (rd rs3 : Reg) (s : State),
    (encode (.montr2 rd rs3)).toNat = 0x12 + rd.toNat * 2 ^ 8 + rs3.toNat * 2 ^ 20 ∧
    (s.reg rs3 = 0 →
      exec (.montr2 rd rs3) (accept (encode (.montr2 rd rs3)) s) = .next
        { accept (encode (.montr2 rd rs3)) s with
          err := 0x01#8, errInfo := 1#32, engine := .fault, irqStat := s.irqStat ||| 2#2 }) ∧
    (s.reg rs3 ≠ 0 → s.reg rs3 % 2 = 0 →
      exec (.montr2 rd rs3) (accept (encode (.montr2 rd rs3)) s) = .next
        { accept (encode (.montr2 rd rs3)) s with
          err := 0x01#8, errInfo := 2#32, engine := .fault, irqStat := s.irqStat ||| 2#2 }) ∧
    (s.reg rs3 % 2 = 1 →
      exec (.montr2 rd rs3) (accept (encode (.montr2 rd rs3)) s) = .next
        { accept (encode (.montr2 rd rs3)) s with
          x := setReg s.x rd (2 ^ (2 * s.par.width) % s.reg rs3), engine := .done,
          irqStat := s.irqStat ||| 1#2 })

/-- The bit-serial reference loop of R126 computes the Montgomery product for operands below an odd modulus, its running
sum staying below `2 n`. -/
def Obligations.BitSerialMontgomeryIsTheProduct : Prop :=
  ∀ w a b n : Nat, n % 2 = 1 → n < 2 ^ w → a < n → b < n →
    (∀ i, i ≤ w → montLoop a b n i < 2 * n) ∧ montSerial w a b n = montProd w a b n

/-- R130 with the ways into and out of Montgomery form (R131, R132) and the agreement with the plain product (R133). -/
def Obligations.MontgomeryFormLaws : Prop :=
  ∀ w a b n : Nat, n % 2 = 1 →
    montProd w (a * 2 ^ w % n) (b * 2 ^ w % n) n = a * b * 2 ^ w % n ∧
    montProd w a (2 ^ w * 2 ^ w % n) n = a * 2 ^ w % n ∧
    montProd w (a * 2 ^ w % n) 1 n = a % n ∧
    montProd w
      (montProd w (montProd w a (2 ^ (2 * w) % n) n) (montProd w b (2 ^ (2 * w) % n) n) n) 1 n = a * b % n

/-! ## Unit 2 -/

/-- MODEXP (R141, R142): its word; `(base ^ e) mod n` as an integer power, for every base, exponent and modulus but 0. -/
def Obligations.ModexpResult : Prop :=
  ∀ (rd rs1 rs2 rs3 : Reg) (s : State),
    (encode (.modexp rd rs1 rs2 rs3)).toNat =
      0x20 + rd.toNat * 2 ^ 8 + rs1.toNat * 2 ^ 12 + rs2.toNat * 2 ^ 16 + rs3.toNat * 2 ^ 20 ∧
    (s.reg rs3 = 0 →
      exec (.modexp rd rs1 rs2 rs3) (accept (encode (.modexp rd rs1 rs2 rs3)) s) = .next
        { accept (encode (.modexp rd rs1 rs2 rs3)) s with
          err := 0x01#8, errInfo := 1#32, engine := .fault, irqStat := s.irqStat ||| 2#2 }) ∧
    (s.reg rs3 ≠ 0 →
      exec (.modexp rd rs1 rs2 rs3) (accept (encode (.modexp rd rs1 rs2 rs3)) s) = .next
        { accept (encode (.modexp rd rs1 rs2 rs3)) s with
          x := setReg s.x rd (s.reg rs1 ^ s.reg rs2 % s.reg rs3), engine := .done,
          irqStat := s.irqStat ||| 1#2 })

/-! ## Unit 3 -/

/-- MODINV (R151, R153): its word; the one `v` below `m` with `a * v = 1` modulo `m`; the fault of a zero modulus; the
fault that reports the low 32 bits of the greatest common divisor. For a divisor of 1 modulo `2^32` and above 1 that report
is the model's choice between R151's formula and R242's "never 1" (log entry 18). -/
def Obligations.ModinvResult : Prop :=
  ∀ (rd rs1 rs3 : Reg) (s : State),
    (encode (.modinv rd rs1 rs3)).toNat =
      0x30 + rd.toNat * 2 ^ 8 + rs1.toNat * 2 ^ 12 + rs3.toNat * 2 ^ 20 ∧
    (s.reg rs3 = 0 →
      exec (.modinv rd rs1 rs3) (accept (encode (.modinv rd rs1 rs3)) s) = .next
        { accept (encode (.modinv rd rs1 rs3)) s with
          err := 0x01#8, errInfo := 1#32, engine := .fault, irqStat := s.irqStat ||| 2#2 }) ∧
    (s.reg rs3 ≠ 0 → Nat.gcd (s.reg rs1) (s.reg rs3) ≠ 1 →
      exec (.modinv rd rs1 rs3) (accept (encode (.modinv rd rs1 rs3)) s) = .next
        { accept (encode (.modinv rd rs1 rs3)) s with
          err := 0x04#8, errInfo := BitVec.ofNat 32 (Nat.gcd (s.reg rs1) (s.reg rs3)), engine := .fault,
          irqStat := s.irqStat ||| 2#2 }) ∧
    (s.reg rs3 ≠ 0 → Nat.gcd (s.reg rs1) (s.reg rs3) = 1 →
      ∃ v, v < s.reg rs3 ∧ s.reg rs1 * v % s.reg rs3 = 1 % s.reg rs3 ∧
        (∀ u, u < s.reg rs3 → s.reg rs1 * u % s.reg rs3 = 1 % s.reg rs3 → u = v) ∧
        exec (.modinv rd rs1 rs3) (accept (encode (.modinv rd rs1 rs3)) s) = .next
          { accept (encode (.modinv rd rs1 rs3)) s with
            x := setReg s.x rd v, engine := .done, irqStat := s.irqStat ||| 1#2 })

/-- GCD (R156): its word; total; the result is the greatest common divisor, 0 for two zeros. -/
def Obligations.GcdResult : Prop :=
  ∀ (rd rs1 rs2 : Reg) (s : State),
    (encode (.gcd rd rs1 rs2)).toNat = 0x31 + rd.toNat * 2 ^ 8 + rs1.toNat * 2 ^ 12 + rs2.toNat * 2 ^ 16 ∧
    ∃ g, g ∣ s.reg rs1 ∧ g ∣ s.reg rs2 ∧ (∀ d, d ∣ s.reg rs1 → d ∣ s.reg rs2 → d ∣ g) ∧
      exec (.gcd rd rs1 rs2) (accept (encode (.gcd rd rs1 rs2)) s) = .next
        { accept (encode (.gcd rd rs1 rs2)) s with
          x := setReg s.x rd g, engine := .done, irqStat := s.irqStat ||| 1#2 }

/-! ## Unit 4 -/

/-- MRTEST (R166, R168, R172, R173): its word; with `ROUNDS = 0` the fault, for every candidate; with `ROUNDS` not 0 and
the bases it draws answered, `BOOL` and the count; a base outside `[2, n - 2]` after fewer than `ROUNDS` passed rounds is
the fault `EntropyRange`. That `ATTEMPTS` does not count that base is deduced (log entry 17). -/
def Obligations.MrtestResult : Prop :=
  ∀ (rs1 : Reg) (s : State),
    (encode (.mrtest rs1)).toNat = 0x40 + rs1.toNat * 2 ^ 12 ∧
    (s.rounds = 0#32 →
      exec (.mrtest rs1) (accept (encode (.mrtest rs1)) s) = .next
        { accept (encode (.mrtest rs1)) s with
          err := 0x01#8, errInfo := 3#32, engine := .fault, irqStat := s.irqStat ||| 2#2 }) ∧
    (∀ (bases : List Nat) (rest : List Input) (b : Bool),
      s.rounds ≠ 0#32 → s.reg rs1 < s.par.radix → s.inputs = answersThen bases rest →
      (if b then MrAccepts s.rounds.toNat (s.reg rs1) bases else MrRejects s.rounds.toNat (s.reg rs1) bases) →
      exec (.mrtest rs1) (accept (encode (.mrtest rs1)) s) = .next
        { accept (encode (.mrtest rs1)) s with
          boolFlag := b, attempts := BitVec.ofNat 32 bases.length, engine := .done,
          irqStat := s.irqStat ||| 1#2, inputs := rest }) ∧
    (∀ (pre : List Nat) (bad : Nat) (rest : List Input),
      5 ≤ s.reg rs1 → s.reg rs1 % 2 = 1 → s.reg rs1 < s.par.radix → pre.length < s.rounds.toNat →
      (∀ a ∈ pre, IsBase (s.reg rs1) a ∧ PassesRound (s.reg rs1) a) → bad < s.par.radix → ¬ IsBase (s.reg rs1) bad →
      s.inputs = answersThen (pre ++ [bad]) rest →
      exec (.mrtest rs1) (accept (encode (.mrtest rs1)) s) = .next
        { accept (encode (.mrtest rs1)) s with
          err := 0x12#8, errInfo := 0#32, attempts := BitVec.ofNat 32 pre.length, engine := .fault,
          irqStat := s.irqStat ||| 2#2, inputs := rest })

/-- R174: a prime passes every round, whatever the base in `[2, n - 2]`, so MRTEST of a prime answers 1 whatever the
bases drawn, in a run whose draws are answered: `ROUNDS` of them, and none for 2 and 3. -/
def Obligations.PrimePassesEveryRound : Prop :=
  (∀ n a : Nat, n.Prime → 5 ≤ n → IsBase n a → PassesRound n a ∧ roundPasses n a = true) ∧
  (∀ (rs1 : Reg) (s : State) (bases : List Nat) (rest : List Input),
    (s.reg rs1).Prime → s.reg rs1 < s.par.radix → s.rounds ≠ 0#32 →
    bases.length = (if s.reg rs1 ≤ 3 then 0 else s.rounds.toNat) → (∀ a ∈ bases, IsBase (s.reg rs1) a) →
    s.inputs = answersThen bases rest →
    exec (.mrtest rs1) (accept (encode (.mrtest rs1)) s) = .next
      { accept (encode (.mrtest rs1)) s with
        boolFlag := true, attempts := BitVec.ofNat 32 bases.length, engine := .done,
        irqStat := s.irqStat ||| 1#2, inputs := rest })

/-! ## Unit 5 -/

/-- RANDODD (R186): its word; its result with a legal `BITS` and its draw answered; `BITS` 0 or above `W` faults with no draw. -/
def Obligations.RandoddResult : Prop :=
  ∀ (rd : Reg) (s : State),
    (encode (.randodd rd)).toNat = 0x50 + rd.toNat * 2 ^ 8 ∧
    (s.bits.toNat = 0 ∨ s.par.width < s.bits.toNat →
      exec (.randodd rd) (accept (encode (.randodd rd)) s) = .next
        { accept (encode (.randodd rd)) s with
          err := 0x01#8, errInfo := 4#32, engine := .fault, irqStat := s.irqStat ||| 2#2 }) ∧
    (∀ (v : Nat) (rest : List Input), 1 ≤ s.bits.toNat → s.bits.toNat ≤ s.par.width →
      s.inputs = .answer v :: rest →
      exec (.randodd rd) (accept (encode (.randodd rd)) s) = .next
        { accept (encode (.randodd rd)) s with
          x := setReg s.x rd (v % 2 ^ s.bits.toNat ||| 2 ^ (s.bits.toNat - 1) ||| 1), engine := .done,
          irqStat := s.irqStat ||| 1#2, inputs := rest })

/-- The shape of a candidate (R186) and its corner cases (R188): exactly `L` bits, odd, and for `L` of 2 or more
`2^(L-1) + 1 + 2 u` with `u` bits `L - 2` to 1 of the draw; always 1 for `L = 1` and 3 for `L = 2`; the draw all ones, the
draw 0; the bits of the answer at `L` and above are ignored. -/
def Obligations.CandidateShape : Prop :=
  ∀ len v : Nat, 1 ≤ len →
    2 ^ (len - 1) ≤ randOdd len v ∧ randOdd len v < 2 ^ len ∧ randOdd len v % 2 = 1 ∧
    (randOdd len v).testBit (len - 1) = true ∧ bitlen (randOdd len v) = len ∧
    (2 ≤ len → randOdd len v = 2 ^ (len - 1) + 1 + 2 * (v / 2 % 2 ^ (len - 2))) ∧
    (len = 1 → randOdd len v = 1) ∧ (len = 2 → randOdd len v = 3) ∧
    randOdd len (2 ^ len - 1) = 2 ^ len - 1 ∧
    randOdd len 0 = (if len = 1 then 1 else 2 ^ (len - 1) + 1) ∧
    (∀ u, v % 2 ^ len = u % 2 ^ len → randOdd len v = randOdd len u)

/-- TRIALDIV (R191, R192): its word; `BOOL` is 1 exactly when no listed prime divides `c` without being `c`. -/
def Obligations.TrialdivResult : Prop :=
  ∀ (rs1 : Reg) (s : State),
    (encode (.trialdiv rs1)).toNat = 0x51 + rs1.toNat * 2 ^ 12 ∧
    ∃ b : Bool, (b = true ↔ ¬ ∃ q ∈ s.par.sieve, s.reg rs1 % q = 0 ∧ s.reg rs1 ≠ q) ∧
      exec (.trialdiv rs1) (accept (encode (.trialdiv rs1)) s) = .next
        { accept (encode (.trialdiv rs1)) s with
          boolFlag := b, engine := .done, irqStat := s.irqStat ||| 1#2 }

/-- R194: with any legal list the filter never rejects a prime, and what it rejects is composite or 0. -/
def Obligations.FilterNeverRejectsAPrime : Prop :=
  ∀ (par : Params) (c : Nat), trialDivPass par.sieve c = false → ¬ c.Prime ∧ c ≠ 1

/-- PRIMEGEN finds a candidate (R201 to R205): after `rej` rejected attempts, fewer than `LIMIT`, the attempt that draws
`acc` accepts `c`; the draws are consumed in the order of R204 and no further one is made. -/
def Obligations.PrimegenFindsCandidate : Prop :=
  ∀ (rd rs1 : Reg) (s : State) (rej : List (List Nat)) (acc : List Nat) (c : Nat) (rest : List Input),
    s.reg rs1 ≠ 0 → s.reg rs1 < s.par.radix → s.rounds ≠ 0#32 →
    (∀ d ∈ rej, AttemptRejected s (bitlen (s.reg rs1)) d) → rej.length < s.limit.toNat →
    AttemptAccepted s (bitlen (s.reg rs1)) c acc →
    s.inputs = answersThen (rej.flatten ++ acc) rest →
    exec (.primegen rd rs1) (accept (encode (.primegen rd rs1)) s) = .next
      { accept (encode (.primegen rd rs1)) s with
        x := setReg s.x rd c, attempts := BitVec.ofNat 32 (rej.length + 1), engine := .done,
        irqStat := s.irqStat ||| 1#2, inputs := rest }

/-- PRIMEGEN runs out (R201, R205, R257): `LIMIT` rejected attempts and no more; `LIMIT = 0` makes no draw. -/
def Obligations.PrimegenExhausted : Prop :=
  ∀ (rd rs1 : Reg) (s : State) (rej : List (List Nat)) (rest : List Input),
    s.reg rs1 ≠ 0 → s.reg rs1 < s.par.radix → s.rounds ≠ 0#32 →
    (∀ d ∈ rej, AttemptRejected s (bitlen (s.reg rs1)) d) → rej.length = s.limit.toNat →
    s.inputs = answersThen rej.flatten rest →
    exec (.primegen rd rs1) (accept (encode (.primegen rd rs1)) s) = .next
      { accept (encode (.primegen rd rs1)) s with
        err := 0x03#8, errInfo := s.limit, attempts := s.limit, engine := .fault,
        irqStat := s.irqStat ||| 2#2, inputs := rest }

/-- PRIMEGEN's word and its parameter faults (R201, R244): a start of 0 first, then `ROUNDS = 0`. No draw is made. -/
def Obligations.PrimegenParameterFaults : Prop :=
  ∀ (rd rs1 : Reg) (s : State),
    (encode (.primegen rd rs1)).toNat = 0x52 + rd.toNat * 2 ^ 8 + rs1.toNat * 2 ^ 12 ∧
    (s.reg rs1 = 0 →
      exec (.primegen rd rs1) (accept (encode (.primegen rd rs1)) s) = .next
        { accept (encode (.primegen rd rs1)) s with
          err := 0x01#8, errInfo := 4#32, engine := .fault, irqStat := s.irqStat ||| 2#2 }) ∧
    (s.reg rs1 ≠ 0 → s.rounds = 0#32 →
      exec (.primegen rd rs1) (accept (encode (.primegen rd rs1)) s) = .next
        { accept (encode (.primegen rd rs1)) s with
          err := 0x01#8, errInfo := 3#32, engine := .fault, irqStat := s.irqStat ||| 2#2 })

/-- R208: what a PRIMEGEN that succeeds guarantees, whatever the source answered: the bases under which Miller-Rabin has
accepted the result are the last answers it has taken. Answers come from the list of inputs, as `W`-bit numbers (the
model's, log entries 2 and 10). -/
def Obligations.PrimegenGuarantee : Prop :=
  ∀ (rd rs1 : Reg) (s t : State),
    exec (.primegen rd rs1) (accept (encode (.primegen rd rs1)) s) = .next t → t.engine = .done →
    t.reg rd % 2 = 1 ∧ bitlen (t.reg rd) = bitlen (s.reg rs1) ∧ MeetsPredicate s (t.reg rd) ∧
    (s.sieveEn = true → ¬ SieveRejects s.par.sieve (t.reg rd)) ∧
    ∃ pre vs : List Nat, s.inputs = answersThen (pre ++ vs) t.inputs ∧
      MrAccepts s.rounds.toNat (t.reg rd) (vs.map (· % s.par.radix))

/-! ## Unit 6 -/

/-- ISGEN: its word; with an accepted group (R216 to R220, R223): `BOOL` is the formula of its mode, for every `g`. -/
def Obligations.IsgenResult : Prop :=
  ∀ (mode : Mode) (rs1 rs3 : Reg) (s : State),
    (encode (.isgen mode rs1 rs3)).toNat =
      0x60 + rs1.toNat * 2 ^ 12 + rs3.toNat * 2 ^ 20 + mode.toNat * 2 ^ 24 ∧
    (GroupAccepted mode (s.reg rs3) s →
      ∃ b : Bool, (b = true ↔ PassesGenTest mode (s.reg rs1) (s.reg rs3) s) ∧
      exec (.isgen mode rs1 rs3) (accept (encode (.isgen mode rs1 rs3)) s) = .next
        { accept (encode (.isgen mode rs1 rs3)) s with
          boolFlag := b, engine := .done, irqStat := s.irqStat ||| 1#2 })

/-- The parameter faults of ISGEN and GENFIND in their order (R217, R244), and that the reserved mode is illegal. -/
def Obligations.GroupParameterFaults : Prop :=
  ∀ (mode : Mode) (r rs3 : Reg) (s : State) (n : Word) (code : BitVec 8),
    ((mode = 3#2 ∧ code = 0x10#8 ∧ n = 3#32) ∨
      (mode ≠ 3#2 ∧ code = 0x01#8 ∧
        ((s.reg rs3 < 3 ∧ n = 5#32) ∨
          (3 ≤ s.reg rs3 ∧ mode = 1#2 ∧ (s.fcnt.toNat = 0 ∨ 8 < s.fcnt.toNat) ∧ n = 6#32) ∨
          (3 ≤ s.reg rs3 ∧ mode = 1#2 ∧ s.fcnt.toNat ≤ 8 ∧
            ∃ i : Fin 8, i.val < s.fcnt.toNat ∧ (s.f[i] < 2 ∨ ¬ s.f[i] ∣ s.reg rs3 - 1) ∧
              (∀ j : Fin 8, j < i → 2 ≤ s.f[j] ∧ s.f[j] ∣ s.reg rs3 - 1) ∧
              n = BitVec.ofNat 32 (7 + 256 * i.val)) ∨
          (3 ≤ s.reg rs3 ∧ mode = 2#2 ∧ (s.reg rs3 % 2 = 0 ∨ s.reg rs3 < 5) ∧ n = 8#32)))) →
    exec (.isgen mode r rs3) (accept (encode (.isgen mode r rs3)) s) = .next
      { accept (encode (.isgen mode r rs3)) s with
        err := code, errInfo := n, engine := .fault, irqStat := s.irqStat ||| 2#2 } ∧
    exec (.genfind mode r rs3) (accept (encode (.genfind mode r rs3)) s) = .next
      { accept (encode (.genfind mode r rs3)) s with
        err := code, errInfo := n, engine := .fault, irqStat := s.irqStat ||| 2#2 }

/-- GENFIND (R224): its word; after the rejected candidates `rej`, fewer than `LIMIT`, it accepts `g`. -/
def Obligations.GenfindFindsGenerator : Prop :=
  ∀ (mode : Mode) (rd rs3 : Reg) (s : State),
    (encode (.genfind mode rd rs3)).toNat =
      0x61 + rd.toNat * 2 ^ 8 + rs3.toNat * 2 ^ 20 + mode.toNat * 2 ^ 24 ∧
    (∀ (rej : List Nat) (g : Nat) (rest : List Input),
      GroupAccepted mode (s.reg rs3) s → s.reg rs3 < s.par.radix →
      (∀ h ∈ rej, 2 ≤ h ∧ h ≤ s.reg rs3 - 1 ∧ ¬ PassesGenTest mode h (s.reg rs3) s) →
      rej.length < s.limit.toNat → PassesGenTest mode g (s.reg rs3) s →
      s.inputs = answersThen (rej ++ [g]) rest →
      exec (.genfind mode rd rs3) (accept (encode (.genfind mode rd rs3)) s) = .next
        { accept (encode (.genfind mode rd rs3)) s with
          x := setReg s.x rd g, attempts := BitVec.ofNat 32 (rej.length + 1), engine := .done,
          irqStat := s.irqStat ||| 1#2, inputs := rest })

/-- GENFIND runs out (R225, R226, R258): `LIMIT` rejected candidates and no more; `LIMIT = 0` makes no draw. -/
def Obligations.GenfindExhausted : Prop :=
  ∀ (mode : Mode) (rd rs3 : Reg) (s : State) (rej : List Nat) (rest : List Input),
    GroupAccepted mode (s.reg rs3) s → s.reg rs3 < s.par.radix →
    (∀ h ∈ rej, 2 ≤ h ∧ h ≤ s.reg rs3 - 1 ∧ ¬ PassesGenTest mode h (s.reg rs3) s) →
    rej.length = s.limit.toNat →
    s.inputs = answersThen rej rest →
    exec (.genfind mode rd rs3) (accept (encode (.genfind mode rd rs3)) s) = .next
      { accept (encode (.genfind mode rd rs3)) s with
        err := 0x11#8, errInfo := s.limit, attempts := s.limit, engine := .fault,
        irqStat := s.irqStat ||| 2#2, inputs := rest }

/-- R221: for a prime `p` and a list of prime factors of `p - 1` that has every one of them, the factor test equals the
full scan for every `g` in `[2, p - 1]`; the safe-prime list is such a list when `(p - 1) / 2` is prime. -/
def Obligations.FactorTestAgreesWithScan : Prop :=
  (∀ (p g : Nat) (fs : List Nat), p.Prime → 2 ≤ g → g ≤ p - 1 →
    (∀ f ∈ fs, 2 ≤ f ∧ f ∣ p - 1) → (∀ q, q.Prime → q ∣ p - 1 → q ∈ fs) →
    factorTest g p fs = scanTest g p) ∧
  (∀ p g : Nat, p.Prime → 5 ≤ p → ((p - 1) / 2).Prime → 2 ≤ g → g ≤ p - 1 →
    factorTest g p [2, (p - 1) / 2] = scanTest g p)

/-! ## The entropy port -/

/-- R79, R245: an answer outside the range that was asked ends the command in `EntropyRange`; the value is not used. -/
def Obligations.AnswerOutsideRangeFaults : Prop :=
  ∀ (s : State) (w : Wait) (lo hi v : Nat) (rest : List Input), s.engine = .waiting w →
    w.request = .range lo hi → (v % s.par.radix < lo ∨ hi < v % s.par.radix) →
    s.inputs = .answer v :: rest →
    step s = .next
      { s with
        inputs := rest, err := 0x12#8, errInfo := 0#32, engine := .fault, irqStat := s.irqStat ||| 2#2 }

/-- R49, R80, R261: while a draw is not answered the engine takes no step, and no access but a write to `CTRL` changes
what it waits for; an answer to a withdrawn request, or to none, is dropped (R282). -/
def Obligations.UnansweredDrawWaits : Prop :=
  (∀ (s : State) (w : Wait) (rest : List Input), s.engine = .waiting w →
    (s.inputs = [] → step s = .next s) ∧
    (s.inputs = .tick :: rest → step s = .next { s with inputs := rest }) ∧
    (∀ (a : Access) (t : State), a.offset ≠ 0x008 → s.inputs = .access a :: rest → step s = .next t →
      t.engine = .waiting w ∧ t.ctx = s.ctx ∧ t.attempts = s.attempts ∧ t.x = s.x ∧ t.p = s.p ∧ t.f = s.f)) ∧
  (∀ (s : State) (v : Nat) (rest : List Input),
    (s.inputs = .lateAnswer v :: rest → step s = .next { s with inputs := rest }) ∧
    (s.request = none → s.inputs = .answer v :: rest → step s = .next { s with inputs := rest }))

/-- The request on the port while a draw is waited for is one the rules allow (R78, R79): 1 to `W` bits, or a range whose
bounds are `W`-bit values with `lo = 2 <= hi`; and `ENTWAIT` shows it. -/
def Obligations.RequestsAreWithinBounds : Prop :=
  ∀ s : State, s.Inv →
    (s.request.isSome = true ↔ s.status.getLsbD 4 = true) ∧
    (∀ k, s.request = some (.bits k) → 1 ≤ k ∧ k ≤ s.par.width) ∧
    (∀ lo hi, s.request = some (.range lo hi) → lo = 2 ∧ lo ≤ hi ∧ hi < s.par.radix)

/-- Taking an answer at once or later is the same (R48, R80), for the first draw of a command and for every later one: a
command given its next answers within its step ends where it ends when it first waits and they come as steps of their
own, and a command that has ended takes no further answer. That answers are listed as inputs and taken within a step is
the model's choice (log entries 2 and 6). -/
def Obligations.AnswersAtOnceOrLaterAgree : Prop :=
  (∀ (i : Instr) (s t : State), exec i { s with inputs := [] } = .next t →
    (∀ (v : Nat) (rest : List Input), t.busy = true → s.inputs = .answer v :: rest →
      exec i s = step { t with inputs := s.inputs }) ∧
    (t.busy = false ∨ (∀ (v : Nat) (rest : List Input), s.inputs ≠ .answer v :: rest) →
      exec i s = .next { t with inputs := s.inputs })) ∧
  (∀ (w : Wait) (s t : State) (v : Nat) (rest : List Input), s.engine = .waiting w →
    step { s with inputs := [.answer v] } = .next t →
    (∀ (u : Nat) (rest' : List Input), t.busy = true → rest = .answer u :: rest' →
      step { s with inputs := .answer v :: rest } = step { t with inputs := rest }) ∧
    (t.busy = false ∨ (∀ (u : Nat) (rest' : List Input), rest ≠ .answer u :: rest') →
      step { s with inputs := .answer v :: rest } = .next { t with inputs := rest }))

/-! ## The bus window -/

/-- R72: while BUSY every access to the operand windows gets a bus error and has no effect; BUSY starts at acceptance and
ends at the command's end. -/
def Obligations.OperandWindowsLocked : Prop :=
  ∀ (s : State) (a : Access) (rest : List Input), s.rstLow = false → s.busy = true →
    0x1000 ≤ a.offset → a.offset ≤ 0x7FFF → s.inputs = .access a :: rest →
    step s = .next (errored a { s with inputs := rest }) ∧
      (∀ cw, (accept cw s).busy = true) ∧ (finish s).busy = false ∧ (∀ flt, (raise flt s).busy = false)

/-- R67, R68: a misaligned access, or one that is not exactly 32 bits, gets a bus error and has no effect. -/
def Obligations.OnlyAlignedWordAccesses : Prop :=
  ∀ (s : State) (a : Access) (rest : List Input), s.rstLow = false →
    (a.offset % 4 ≠ 0 ∨ a.lanes ≠ 15#4 ∨ a.burst = true) → s.inputs = .access a :: rest →
    step s = .next (errored a { s with inputs := rest })

/-- The unmapped offsets of R61 and R70 get a bus error and change nothing: 0x003C to 0x0FFF, the tail of every slot, and
0x8000 and above. -/
def Obligations.UnmappedOffsetsError : Prop :=
  ∀ (s : State) (a : Access) (rest : List Input), s.rstLow = false →
    ((0x003C ≤ a.offset ∧ a.offset ≤ 0x0FFF) ∨ (0x1000 ≤ a.offset ∧ 4 * s.par.ww ≤ a.offset % 0x400) ∨
      0x8000 ≤ a.offset) →
    s.inputs = .access a :: rest → step s = .next (errored a { s with inputs := rest })

/-- R71: a write to a read-only CSR gets a bus error and changes nothing. -/
def Obligations.ReadOnlyCsrWriteErrors : Prop :=
  ∀ (s : State) (off : Nat) (d : Word) (rest : List Input), s.rstLow = false →
    off ∈ [0x000, 0x004, 0x00C, 0x014, 0x018, 0x028] → s.inputs = .access (memWrite off d) :: rest →
    step s = .next { s with inputs := rest, resp := some .writeError }

/-- R31, R32: `ID` and `PARAM` read as their constants in every state, and a write to either gets a bus error. -/
def Obligations.IdAndParamAreConstants : Prop :=
  ∀ (s : State) (d : Word), s.rstLow = false →
    busAccess (memRead 0x000) s = .next { s with resp := some (.data 0x50430007#32) } ∧
    busAccess (memRead 0x004) s = .next { s with resp := some (.data (BitVec.ofNat 32 (0x48100000 + s.par.ww))) } ∧
    busAccess (memWrite 0x000 d) s = .next { s with resp := some .writeError } ∧
    busAccess (memWrite 0x004 d) s = .next { s with resp := some .writeError } ∧
    1 ≤ s.par.ww ∧ s.par.ww ≤ 256 ∧ s.par.width = 32 * s.par.ww

/-- Every CSR answers a read in every state of the engine, with no effect but the answer (R28, R34 to R45). -/
def Obligations.CsrReadsAlwaysAnswer : Prop :=
  ∀ s : State, s.rstLow = false →
    ∀ p ∈ [(0x008, if s.sieveEn then 1#32 else 0#32), (0x00C, s.status), (0x010, s.cmd),
        (0x014, s.err.setWidth 32), (0x018, s.errInfo), (0x01C, s.rounds), (0x020, s.limit), (0x024, s.bits),
        (0x028, s.attempts), (0x02C, s.predctl.setWidth 32), (0x030, s.fcnt.setWidth 32),
        (0x034, s.irqEn.setWidth 32), (0x038, s.irqStat.setWidth 32)],
      busAccess (memRead p.1) s = .next { s with resp := some (.data p.2) }

/-- A write to an `RW` CSR in every state of the engine (R28, R33, R38 to R44, R47): the whole next state, in which that
CSR alone has changed, to the implemented bits of the word, and what a read then returns. A write of 1 to `CTRL.SRST` is
SoftResetResetsEverything. -/
def Obligations.CsrWritesReadBack : Prop :=
  ∀ (s : State) (d : Word), s.rstLow = false →
    (d.getLsbD 31 = false →
      busAccess (memWrite 0x008 d) s = .next { s with sieveEn := d.getLsbD 0, resp := some .written }) ∧
    busAccess (memWrite 0x01C d) s = .next { s with rounds := d, resp := some .written } ∧
    busAccess (memWrite 0x020 d) s = .next { s with limit := d, resp := some .written } ∧
    busAccess (memWrite 0x024 d) s = .next { s with bits := d, resp := some .written } ∧
    busAccess (memWrite 0x02C d) s = .next { s with predctl := d.extractLsb' 0 4, resp := some .written } ∧
    busAccess (memWrite 0x030 d) s = .next { s with fcnt := d.extractLsb' 0 4, resp := some .written } ∧
    busAccess (memWrite 0x034 d) s = .next { s with irqEn := d.extractLsb' 0 2, resp := some .written } ∧
    ∀ (off : Nat) (m : Word) (t : State),
      (off, m) ∈ [(0x008, 0x00000001#32), (0x01C, 0xFFFFFFFF#32), (0x020, 0xFFFFFFFF#32), (0x024, 0xFFFFFFFF#32),
        (0x02C, 0x0000000F#32), (0x030, 0x0000000F#32), (0x034, 0x00000003#32)] →
      (off = 0x008 → d.getLsbD 31 = false) → busAccess (memWrite off d) s = .next t →
      busAccess (memRead off) t = .next { t with resp := some (.data (d &&& m)) }

/-- R62, R63, R64: word `j` of a register is at its offset and holds bits `32 j + 31` down to `32 j`; a read returns
those bits, a write replaces those bits of that register and no others. -/
def Obligations.WindowWordsAreTheRegisters : Prop :=
  ∀ (s : State) (d : Word) (j : Nat), s.rstLow = false → s.busy = false → j < s.par.ww →
    (∀ i : Fin 16,
      (∃ r : Word, busAccess (memRead (0x1000 + 0x400 * i.val + 4 * j)) s = .next { s with resp := some (.data r) } ∧
        ∀ k, k < 32 → r.getLsbD k = s.x[i].testBit (32 * j + k)) ∧
      ∃ v, busAccess (memWrite (0x1000 + 0x400 * i.val + 4 * j) d) s = .next
          { s with x := s.x.set i v, resp := some .written } ∧
        ∀ b, v.testBit b = if 32 * j ≤ b ∧ b < 32 * j + 32 then d.getLsbD (b - 32 * j) else s.x[i].testBit b) ∧
    (∀ k : Fin 4,
      (∃ r : Word, busAccess (memRead (0x5000 + 0x400 * k.val + 4 * j)) s = .next { s with resp := some (.data r) } ∧
        ∀ n, n < 32 → r.getLsbD n = s.p[k].testBit (32 * j + n)) ∧
      ∃ v, busAccess (memWrite (0x5000 + 0x400 * k.val + 4 * j) d) s = .next
          { s with p := s.p.set k v, resp := some .written } ∧
        ∀ b, v.testBit b = if 32 * j ≤ b ∧ b < 32 * j + 32 then d.getLsbD (b - 32 * j) else s.p[k].testBit b) ∧
    (∀ k : Fin 8,
      (∃ r : Word, busAccess (memRead (0x6000 + 0x400 * k.val + 4 * j)) s = .next { s with resp := some (.data r) } ∧
        ∀ n, n < 32 → r.getLsbD n = s.f[k].testBit (32 * j + n)) ∧
      ∃ v, busAccess (memWrite (0x6000 + 0x400 * k.val + 4 * j) d) s = .next
          { s with f := s.f.set k v, resp := some .written } ∧
        ∀ b, v.testBit b = if 32 * j ≤ b ∧ b < 32 * j + 32 then d.getLsbD (b - 32 * j) else s.f[k].testBit b)

/-- R65: a register's value is the sum of its words as the host reads them, the least significant word at the lowest
offset of the slot. -/
def Obligations.RegisterIsTheSumOfItsWords : Prop :=
  ∀ s : State, s.rstLow = false → s.busy = false → s.OperandsFit →
    (∀ i : Fin 16, ∃ word : Nat → Word,
      (∀ j, j < s.par.ww →
        busAccess (memRead (0x1000 + 0x400 * i.val + 4 * j)) s = .next { s with resp := some (.data (word j)) }) ∧
      s.x[i] = ∑ j ∈ Finset.range s.par.ww, (word j).toNat * 2 ^ (32 * j)) ∧
    (∀ k : Fin 4, ∃ word : Nat → Word,
      (∀ j, j < s.par.ww →
        busAccess (memRead (0x5000 + 0x400 * k.val + 4 * j)) s = .next { s with resp := some (.data (word j)) }) ∧
      s.p[k] = ∑ j ∈ Finset.range s.par.ww, (word j).toNat * 2 ^ (32 * j)) ∧
    (∀ k : Fin 8, ∃ word : Nat → Word,
      (∀ j, j < s.par.ww →
        busAccess (memRead (0x6000 + 0x400 * k.val + 4 * j)) s = .next { s with resp := some (.data (word j)) }) ∧
      s.f[k] = ∑ j ∈ Finset.range s.par.ww, (word j).toNat * 2 ^ (32 * j))

/-! ## Reset and the interrupt -/

/-- R50: every piece of state after a reset, for every choice of the parameters; an answer to a request withdrawn is
discarded. -/
def Obligations.ResetValues : Prop :=
  ∀ par : Params, ∀ s, s = State.resetFor par →
    (∀ i : Fin 16, s.x[i] = 0) ∧ (∀ k : Fin 4, s.p[k] = 0) ∧ (∀ k : Fin 8, s.f[k] = 0) ∧
    csrRead .id s = 0x50430007#32 ∧ csrRead .param s = BitVec.ofNat 32 (0x48100000 + par.ww) ∧
    csrRead .ctrl s = 0#32 ∧ s.status = 0#32 ∧ s.engine = .idle ∧ s.boolFlag = false ∧ s.cmd = 0#32 ∧
    s.err = 0#8 ∧ s.errInfo = 0#32 ∧ s.attempts = 0#32 ∧ s.rounds = 0#32 ∧ s.limit = 0#32 ∧ s.bits = 0#32 ∧
    s.predctl = 0#4 ∧ s.fcnt = 0#4 ∧ s.irqEn = 0#2 ∧ s.irqStat = 0#2 ∧ s.irq = false ∧
    s.ctx = ⟨0#32, 0, 0, 0, 0#32, 0#32, 0#32, 0#4, 0#4, false⟩ ∧ s.request = none ∧
    (∀ v, takeAnswer v s = s)

/-- R281: a write of 1 to `CTRL.SRST` resets the whole block in any engine state, completes without a bus error, and the
other bits of the word are ignored; `CTRL` then reads 0, and `SRST` reads 0 in every state. -/
def Obligations.SoftResetResetsEverything : Prop :=
  ∀ (s : State) (d : Word) (rest : List Input), s.rstLow = false → d.getLsbD 31 = true →
    s.inputs = .access (memWrite 0x008 d) :: rest →
    ∃ t, step s = .next t ∧
      t = { State.resetFor s.par with
            inputs := rest, resp := some .written, erroredReads := s.erroredReads } ∧
      busAccess (memRead 0x008) t = .next { t with resp := some (.data 0#32) } ∧
      ∀ u : State, u.rstLow = false →
        ∃ w : Word, busAccess (memRead 0x008) u = .next { u with resp := some (.data w) } ∧ w.getLsbD 31 = false

/-- The reset input (R280): driven low in any state it puts the reset state there and holds it, an access then has no
transition (U8); driven high again the state is the reset state and commands are accepted. -/
def Obligations.ResetInputHoldsResetState : Prop :=
  ∀ (s : State) (rest : List Input), s.inputs = .rstN false :: rest →
    ∃ t, step s = .next t ∧
      t = { State.resetFor s.par with
            inputs := rest, resp := s.resp, erroredReads := s.erroredReads, rstLow := true } ∧
      (∀ a rest', step { t with inputs := .access a :: rest' } = .refused .accessDuringReset) ∧
      (∀ rest', step { t with inputs := .tick :: rest' } = .next { t with inputs := rest' }) ∧
      (∀ rest', step { t with inputs := .rstN true :: rest' } = .next { t with inputs := rest', rstLow := false })

/-- `IRQ_STAT` is write-one-to-clear (R45): a bit written 1 is cleared, a bit written 0 stays, nothing else changes; and
the line `irq` is high exactly while some pending bit is enabled (R252). -/
def Obligations.PendingBitsAndInterruptLine : Prop :=
  ∀ (s : State) (d : Word),
    (s.rstLow = false →
      ∃ q : BitVec 2, (∀ k, k < 2 → q.getLsbD k = (s.irqStat.getLsbD k && !d.getLsbD k)) ∧
        busAccess (memWrite 0x038 d) s = .next { s with irqStat := q, resp := some .written }) ∧
    (s.irq = true ↔ ∃ k, k < 2 ∧ s.irqStat.getLsbD k = true ∧ s.irqEn.getLsbD k = true)

/-- R253: a command end sets exactly one pending bit; a clear of `IRQ_STAT` in the same cycle loses to it; a write of
`CTRL.SRST` in the same cycle wins and the end is lost. -/
def Obligations.SimultaneousEvents : Prop :=
  ∀ (s : State) (d : Word) (ans : Option Nat) (rest : List Input), s.rstLow = false → s.busy = true →
    (∀ t, s.inputs = .sameCycle (memWrite 0x038 d) ans :: rest → step s = .next t →
      (t.engine = .done → t.irqStat = (s.irqStat &&& ~~~ d.setWidth 2) ||| 1#2) ∧
      (t.engine = .fault → t.irqStat = (s.irqStat &&& ~~~ d.setWidth 2) ||| 2#2)) ∧
    (d.getLsbD 31 = true → s.inputs = .sameCycle (memWrite 0x008 d) ans :: rest →
      step s = .next
        { State.resetFor s.par with
          inputs := rest, resp := some .written, erroredReads := s.erroredReads })

/-! ## The whole machine -/

/-- The invariant holds after reset, for every choice of the parameters. -/
def Obligations.InvAtReset : Prop := State.reset.Inv ∧ ∀ par : Params, (State.resetFor par).Inv

/-- Every step keeps the invariant, in every state that has it and whatever the outside agents do. -/
def Obligations.StepKeepsInv : Prop :=
  ∀ s t : State, s.Inv → step s = .next t → t.Inv

/-- In a state with the invariant, the command a step runs has its sources latched from the registers it names (R46,
R72). -/
def Obligations.RunningCommandReadsItsRegisters : Prop :=
  ∀ (s : State) (i : Instr), s.Inv → s.engine = .accepted → decode s.ctx.cw = .ok i →
    s.ctx.cw = s.cmd ∧ (∀ r, i.rs1? = some r → s.src1 = s.reg r) ∧ (∀ r, i.rs2? = some r → s.src2 = s.reg r) ∧
      (∀ r, i.rs3? = some r → s.src3 = s.reg r)

/-- What no command changes, and what each changes only if its rule says so: the frame of all twelve. -/
def Obligations.CommandFrame : Prop :=
  ∀ (i : Instr) (s t : State), exec i s = .next t →
    t.p = s.p ∧ t.f = s.f ∧ t.sieveEn = s.sieveEn ∧ t.cmd = s.cmd ∧ t.rounds = s.rounds ∧ t.limit = s.limit ∧
    t.bits = s.bits ∧ t.predctl = s.predctl ∧ t.fcnt = s.fcnt ∧ t.irqEn = s.irqEn ∧ t.ctx = s.ctx ∧
    t.par = s.par ∧ t.resp = s.resp ∧ t.rstLow = s.rstLow ∧ t.erroredReads = s.erroredReads ∧
    (∀ r, i.rd? ≠ some r → t.reg r = s.reg r) ∧
    (t.engine ≠ .fault → t.err = s.err ∧ t.errInfo = s.errInfo) ∧
    ((∀ r, i ≠ .mrtest r) → (∀ r, i ≠ .trialdiv r) → (∀ m r q, i ≠ .isgen m r q) → t.boolFlag = s.boolFlag) ∧
    ((∀ r, i ≠ .mrtest r) → (∀ r q, i ≠ .primegen r q) → (∀ m r q, i ≠ .genfind m r q) →
      t.attempts = s.attempts)

/-- Every command, legal or not in its mode, answers a next state: it is done, has faulted, or stands at a draw; the
pending bit it sets is that of its end and no other (R26, R246, R247, R290). -/
def Obligations.EveryCommandAnswers : Prop :=
  ∀ (i : Instr) (s : State), ∃ t, exec i s = .next t ∧
    ((t.engine = .done ∧ t.irqStat = s.irqStat ||| 1#2) ∨ (t.engine = .fault ∧ t.irqStat = s.irqStat ||| 2#2) ∨
      (∃ w, t.engine = .waiting w ∧ t.irqStat = s.irqStat ∧ i.rd? = (match w with
        | .randodd rd _ => some rd
        | .mrtest _ _ => none
        | .primegenCandidate rd _ => some rd
        | .primegenBase rd _ _ _ => some rd
        | .genfind _ rd _ => some rd)))

/-- Faults are precise (R248): a faulting end, within the command's first step or after any answer, writes no operand
register and no configuration CSR, and leaves `BOOL` and `CMD`. -/
def Obligations.FaultingEndIsPrecise : Prop :=
  ∀ s t : State,
    ((∃ i, exec i s = .next t) ∨ ((∃ w, s.engine = .waiting w) ∧ ∃ v, takeAnswer v s = t)) → t.engine = .fault →
    t.x = s.x ∧ t.p = s.p ∧ t.f = s.f ∧ t.rounds = s.rounds ∧ t.limit = s.limit ∧ t.bits = s.bits ∧
    t.predctl = s.predctl ∧ t.fcnt = s.fcnt ∧ t.irqEn = s.irqEn ∧ t.sieveEn = s.sieveEn ∧
    t.boolFlag = s.boolFlag ∧ t.cmd = s.cmd

/-- Late configuration does not reach a running command (R47, R293): with the configuration CSRs changed after
acceptance, the command and every answer it takes do what they do without the change. -/
def Obligations.LateConfigurationHasNoEffect : Prop :=
  ∀ (rounds limit bits : Word) (predctl fcnt : BitVec 4) (sieveEn : Bool) (s : State),
    (∀ (i : Instr) (t : State), exec i s = .next t →
      exec i (reconfigured rounds limit bits predctl fcnt sieveEn s) =
        .next (reconfigured rounds limit bits predctl fcnt sieveEn t)) ∧
    (∀ v, takeAnswer v (reconfigured rounds limit bits predctl fcnt sieveEn s) =
      reconfigured rounds limit bits predctl fcnt sieveEn (takeAnswer v s))

/-- Every command ends if the source answers (R104, R300): with at least `1 + ROUNDS + LIMIT * (ROUNDS + 1)` answers to
come, the engine is not BUSY after the command's step. -/
def Obligations.AnsweredCommandEnds : Prop :=
  ∀ (i : Instr) (s : State) (vs : List Nat) (rest : List Input),
    1 + s.rounds.toNat + s.limit.toNat * (s.rounds.toNat + 1) ≤ vs.length → s.inputs = answersThen vs rest →
    ∃ t, exec i (accept (encode i) s) = .next t ∧ (t.engine = .done ∨ t.engine = .fault)

/-- `ATTEMPTS` never falls while a command runs (R302). -/
def Obligations.AttemptsNeverFall : Prop :=
  ∀ s t : State, s.Inv → s.busy = true → step s = .next t → t.busy = true →
    s.attempts.toNat ≤ t.attempts.toNat

/-- The machine stops nowhere but at an access during reset (R290, R280), and no step changes the parameters (R283). -/
def Obligations.StepStopsOnlyDuringReset : Prop :=
  ∀ s : State,
    (∃ t, step s = .next t ∧ t.par = s.par) ∨
      (step s = .refused .accessDuringReset ∧ s.rstLow = true ∧
        ∃ a rest, s.inputs = .access a :: rest ∨ ∃ ans, s.inputs = .sameCycle a ans :: rest)
end

