-- ==== Sys2Proof/Laws/State.lean ====
section
/-! SUPPORT. One lemma per field per shared state update (R46, R246, R247, R50), each true by unfolding the update once,
so that no later proof unfolds a record update. -/

namespace Sys2Proof.Machine

section
variable (cw : Word) (s : State)

@[simp] theorem accept_x : (accept cw s).x = s.x := rfl
@[simp] theorem accept_p : (accept cw s).p = s.p := rfl
@[simp] theorem accept_f : (accept cw s).f = s.f := rfl
@[simp] theorem accept_sieveEn : (accept cw s).sieveEn = s.sieveEn := rfl
@[simp] theorem accept_engine : (accept cw s).engine = .accepted := rfl
@[simp] theorem accept_boolFlag : (accept cw s).boolFlag = false := rfl
@[simp] theorem accept_cmd : (accept cw s).cmd = cw := rfl
@[simp] theorem accept_err : (accept cw s).err = 0#8 := rfl
@[simp] theorem accept_errInfo : (accept cw s).errInfo = 0#32 := rfl
@[simp] theorem accept_rounds : (accept cw s).rounds = s.rounds := rfl
@[simp] theorem accept_limit : (accept cw s).limit = s.limit := rfl
@[simp] theorem accept_bits : (accept cw s).bits = s.bits := rfl
@[simp] theorem accept_attempts : (accept cw s).attempts = 0#32 := rfl
@[simp] theorem accept_predctl : (accept cw s).predctl = s.predctl := rfl
@[simp] theorem accept_fcnt : (accept cw s).fcnt = s.fcnt := rfl
@[simp] theorem accept_irqEn : (accept cw s).irqEn = s.irqEn := rfl
@[simp] theorem accept_irqStat : (accept cw s).irqStat = s.irqStat := rfl
@[simp] theorem accept_ctx : (accept cw s).ctx = latch cw s := rfl
@[simp] theorem accept_par : (accept cw s).par = s.par := rfl
@[simp] theorem accept_inputs : (accept cw s).inputs = s.inputs := rfl
@[simp] theorem accept_resp : (accept cw s).resp = s.resp := rfl
@[simp] theorem accept_rstLow : (accept cw s).rstLow = s.rstLow := rfl
@[simp] theorem accept_erroredReads : (accept cw s).erroredReads = s.erroredReads := rfl

end

section
variable (s : State)

@[simp] theorem finish_x : (finish s).x = s.x := rfl
@[simp] theorem finish_p : (finish s).p = s.p := rfl
@[simp] theorem finish_f : (finish s).f = s.f := rfl
@[simp] theorem finish_sieveEn : (finish s).sieveEn = s.sieveEn := rfl
@[simp] theorem finish_engine : (finish s).engine = .done := rfl
@[simp] theorem finish_boolFlag : (finish s).boolFlag = s.boolFlag := rfl
@[simp] theorem finish_cmd : (finish s).cmd = s.cmd := rfl
@[simp] theorem finish_err : (finish s).err = s.err := rfl
@[simp] theorem finish_errInfo : (finish s).errInfo = s.errInfo := rfl
@[simp] theorem finish_rounds : (finish s).rounds = s.rounds := rfl
@[simp] theorem finish_limit : (finish s).limit = s.limit := rfl
@[simp] theorem finish_bits : (finish s).bits = s.bits := rfl
@[simp] theorem finish_attempts : (finish s).attempts = s.attempts := rfl
@[simp] theorem finish_predctl : (finish s).predctl = s.predctl := rfl
@[simp] theorem finish_fcnt : (finish s).fcnt = s.fcnt := rfl
@[simp] theorem finish_irqEn : (finish s).irqEn = s.irqEn := rfl
@[simp] theorem finish_irqStat : (finish s).irqStat = s.irqStat ||| donePending := rfl
@[simp] theorem finish_ctx : (finish s).ctx = s.ctx := rfl
@[simp] theorem finish_par : (finish s).par = s.par := rfl
@[simp] theorem finish_inputs : (finish s).inputs = s.inputs := rfl
@[simp] theorem finish_resp : (finish s).resp = s.resp := rfl
@[simp] theorem finish_rstLow : (finish s).rstLow = s.rstLow := rfl
@[simp] theorem finish_erroredReads : (finish s).erroredReads = s.erroredReads := rfl

end

section
variable (rd : Reg) (v : Nat) (s : State)

@[simp] theorem finishValue_x : (finishValue rd v s).x = setReg s.x rd v := rfl
@[simp] theorem finishValue_p : (finishValue rd v s).p = s.p := rfl
@[simp] theorem finishValue_f : (finishValue rd v s).f = s.f := rfl
@[simp] theorem finishValue_sieveEn : (finishValue rd v s).sieveEn = s.sieveEn := rfl
@[simp] theorem finishValue_engine : (finishValue rd v s).engine = .done := rfl
@[simp] theorem finishValue_boolFlag : (finishValue rd v s).boolFlag = s.boolFlag := rfl
@[simp] theorem finishValue_cmd : (finishValue rd v s).cmd = s.cmd := rfl
@[simp] theorem finishValue_err : (finishValue rd v s).err = s.err := rfl
@[simp] theorem finishValue_errInfo : (finishValue rd v s).errInfo = s.errInfo := rfl
@[simp] theorem finishValue_rounds : (finishValue rd v s).rounds = s.rounds := rfl
@[simp] theorem finishValue_limit : (finishValue rd v s).limit = s.limit := rfl
@[simp] theorem finishValue_bits : (finishValue rd v s).bits = s.bits := rfl
@[simp] theorem finishValue_attempts : (finishValue rd v s).attempts = s.attempts := rfl
@[simp] theorem finishValue_predctl : (finishValue rd v s).predctl = s.predctl := rfl
@[simp] theorem finishValue_fcnt : (finishValue rd v s).fcnt = s.fcnt := rfl
@[simp] theorem finishValue_irqEn : (finishValue rd v s).irqEn = s.irqEn := rfl
@[simp] theorem finishValue_irqStat : (finishValue rd v s).irqStat = s.irqStat ||| donePending := rfl
@[simp] theorem finishValue_ctx : (finishValue rd v s).ctx = s.ctx := rfl
@[simp] theorem finishValue_par : (finishValue rd v s).par = s.par := rfl
@[simp] theorem finishValue_inputs : (finishValue rd v s).inputs = s.inputs := rfl
@[simp] theorem finishValue_resp : (finishValue rd v s).resp = s.resp := rfl
@[simp] theorem finishValue_rstLow : (finishValue rd v s).rstLow = s.rstLow := rfl
@[simp] theorem finishValue_erroredReads : (finishValue rd v s).erroredReads = s.erroredReads := rfl

end

section
variable (b : Bool) (s : State)

@[simp] theorem finishBool_x : (finishBool b s).x = s.x := rfl
@[simp] theorem finishBool_p : (finishBool b s).p = s.p := rfl
@[simp] theorem finishBool_f : (finishBool b s).f = s.f := rfl
@[simp] theorem finishBool_sieveEn : (finishBool b s).sieveEn = s.sieveEn := rfl
@[simp] theorem finishBool_engine : (finishBool b s).engine = .done := rfl
@[simp] theorem finishBool_boolFlag : (finishBool b s).boolFlag = b := rfl
@[simp] theorem finishBool_cmd : (finishBool b s).cmd = s.cmd := rfl
@[simp] theorem finishBool_err : (finishBool b s).err = s.err := rfl
@[simp] theorem finishBool_errInfo : (finishBool b s).errInfo = s.errInfo := rfl
@[simp] theorem finishBool_rounds : (finishBool b s).rounds = s.rounds := rfl
@[simp] theorem finishBool_limit : (finishBool b s).limit = s.limit := rfl
@[simp] theorem finishBool_bits : (finishBool b s).bits = s.bits := rfl
@[simp] theorem finishBool_attempts : (finishBool b s).attempts = s.attempts := rfl
@[simp] theorem finishBool_predctl : (finishBool b s).predctl = s.predctl := rfl
@[simp] theorem finishBool_fcnt : (finishBool b s).fcnt = s.fcnt := rfl
@[simp] theorem finishBool_irqEn : (finishBool b s).irqEn = s.irqEn := rfl
@[simp] theorem finishBool_irqStat : (finishBool b s).irqStat = s.irqStat ||| donePending := rfl
@[simp] theorem finishBool_ctx : (finishBool b s).ctx = s.ctx := rfl
@[simp] theorem finishBool_par : (finishBool b s).par = s.par := rfl
@[simp] theorem finishBool_inputs : (finishBool b s).inputs = s.inputs := rfl
@[simp] theorem finishBool_resp : (finishBool b s).resp = s.resp := rfl
@[simp] theorem finishBool_rstLow : (finishBool b s).rstLow = s.rstLow := rfl
@[simp] theorem finishBool_erroredReads : (finishBool b s).erroredReads = s.erroredReads := rfl

end

section
variable (flt : CommandFault) (s : State)

@[simp] theorem raise_x : (raise flt s).x = s.x := rfl
@[simp] theorem raise_p : (raise flt s).p = s.p := rfl
@[simp] theorem raise_f : (raise flt s).f = s.f := rfl
@[simp] theorem raise_sieveEn : (raise flt s).sieveEn = s.sieveEn := rfl
@[simp] theorem raise_engine : (raise flt s).engine = .fault := rfl
@[simp] theorem raise_boolFlag : (raise flt s).boolFlag = s.boolFlag := rfl
@[simp] theorem raise_cmd : (raise flt s).cmd = s.cmd := rfl
@[simp] theorem raise_err : (raise flt s).err = flt.code := rfl
@[simp] theorem raise_errInfo : (raise flt s).errInfo = flt.info := rfl
@[simp] theorem raise_rounds : (raise flt s).rounds = s.rounds := rfl
@[simp] theorem raise_limit : (raise flt s).limit = s.limit := rfl
@[simp] theorem raise_bits : (raise flt s).bits = s.bits := rfl
@[simp] theorem raise_attempts : (raise flt s).attempts = s.attempts := rfl
@[simp] theorem raise_predctl : (raise flt s).predctl = s.predctl := rfl
@[simp] theorem raise_fcnt : (raise flt s).fcnt = s.fcnt := rfl
@[simp] theorem raise_irqEn : (raise flt s).irqEn = s.irqEn := rfl
@[simp] theorem raise_irqStat : (raise flt s).irqStat = s.irqStat ||| faultPending := rfl
@[simp] theorem raise_ctx : (raise flt s).ctx = s.ctx := rfl
@[simp] theorem raise_par : (raise flt s).par = s.par := rfl
@[simp] theorem raise_inputs : (raise flt s).inputs = s.inputs := rfl
@[simp] theorem raise_resp : (raise flt s).resp = s.resp := rfl
@[simp] theorem raise_rstLow : (raise flt s).rstLow = s.rstLow := rfl
@[simp] theorem raise_erroredReads : (raise flt s).erroredReads = s.erroredReads := rfl

end

section
variable (cause : ParamCause) (s : State)

@[simp] theorem raiseParam_x : (raiseParam cause s).x = s.x := rfl
@[simp] theorem raiseParam_p : (raiseParam cause s).p = s.p := rfl
@[simp] theorem raiseParam_f : (raiseParam cause s).f = s.f := rfl
@[simp] theorem raiseParam_sieveEn : (raiseParam cause s).sieveEn = s.sieveEn := rfl
@[simp] theorem raiseParam_engine : (raiseParam cause s).engine = .fault := rfl
@[simp] theorem raiseParam_boolFlag : (raiseParam cause s).boolFlag = s.boolFlag := rfl
@[simp] theorem raiseParam_cmd : (raiseParam cause s).cmd = s.cmd := rfl
@[simp] theorem raiseParam_err : (raiseParam cause s).err = 0x01#8 := rfl
@[simp] theorem raiseParam_errInfo : (raiseParam cause s).errInfo = cause.info := rfl
@[simp] theorem raiseParam_rounds : (raiseParam cause s).rounds = s.rounds := rfl
@[simp] theorem raiseParam_limit : (raiseParam cause s).limit = s.limit := rfl
@[simp] theorem raiseParam_bits : (raiseParam cause s).bits = s.bits := rfl
@[simp] theorem raiseParam_attempts : (raiseParam cause s).attempts = s.attempts := rfl
@[simp] theorem raiseParam_predctl : (raiseParam cause s).predctl = s.predctl := rfl
@[simp] theorem raiseParam_fcnt : (raiseParam cause s).fcnt = s.fcnt := rfl
@[simp] theorem raiseParam_irqEn : (raiseParam cause s).irqEn = s.irqEn := rfl
@[simp] theorem raiseParam_irqStat : (raiseParam cause s).irqStat = s.irqStat ||| faultPending := rfl
@[simp] theorem raiseParam_ctx : (raiseParam cause s).ctx = s.ctx := rfl
@[simp] theorem raiseParam_par : (raiseParam cause s).par = s.par := rfl
@[simp] theorem raiseParam_inputs : (raiseParam cause s).inputs = s.inputs := rfl
@[simp] theorem raiseParam_resp : (raiseParam cause s).resp = s.resp := rfl
@[simp] theorem raiseParam_rstLow : (raiseParam cause s).rstLow = s.rstLow := rfl
@[simp] theorem raiseParam_erroredReads : (raiseParam cause s).erroredReads = s.erroredReads := rfl

end

section
variable (w : Wait) (s : State)

@[simp] theorem placeDraw_x : (placeDraw w s).x = s.x := rfl
@[simp] theorem placeDraw_p : (placeDraw w s).p = s.p := rfl
@[simp] theorem placeDraw_f : (placeDraw w s).f = s.f := rfl
@[simp] theorem placeDraw_sieveEn : (placeDraw w s).sieveEn = s.sieveEn := rfl
@[simp] theorem placeDraw_engine : (placeDraw w s).engine = .waiting w := rfl
@[simp] theorem placeDraw_boolFlag : (placeDraw w s).boolFlag = s.boolFlag := rfl
@[simp] theorem placeDraw_cmd : (placeDraw w s).cmd = s.cmd := rfl
@[simp] theorem placeDraw_err : (placeDraw w s).err = s.err := rfl
@[simp] theorem placeDraw_errInfo : (placeDraw w s).errInfo = s.errInfo := rfl
@[simp] theorem placeDraw_rounds : (placeDraw w s).rounds = s.rounds := rfl
@[simp] theorem placeDraw_limit : (placeDraw w s).limit = s.limit := rfl
@[simp] theorem placeDraw_bits : (placeDraw w s).bits = s.bits := rfl
@[simp] theorem placeDraw_attempts : (placeDraw w s).attempts = s.attempts := rfl
@[simp] theorem placeDraw_predctl : (placeDraw w s).predctl = s.predctl := rfl
@[simp] theorem placeDraw_fcnt : (placeDraw w s).fcnt = s.fcnt := rfl
@[simp] theorem placeDraw_irqEn : (placeDraw w s).irqEn = s.irqEn := rfl
@[simp] theorem placeDraw_irqStat : (placeDraw w s).irqStat = s.irqStat := rfl
@[simp] theorem placeDraw_ctx : (placeDraw w s).ctx = s.ctx := rfl
@[simp] theorem placeDraw_par : (placeDraw w s).par = s.par := rfl
@[simp] theorem placeDraw_inputs : (placeDraw w s).inputs = s.inputs := rfl
@[simp] theorem placeDraw_resp : (placeDraw w s).resp = s.resp := rfl
@[simp] theorem placeDraw_rstLow : (placeDraw w s).rstLow = s.rstLow := rfl
@[simp] theorem placeDraw_erroredReads : (placeDraw w s).erroredReads = s.erroredReads := rfl

end

section
variable (s : State)

@[simp] theorem countAttempt_x : (countAttempt s).x = s.x := rfl
@[simp] theorem countAttempt_p : (countAttempt s).p = s.p := rfl
@[simp] theorem countAttempt_f : (countAttempt s).f = s.f := rfl
@[simp] theorem countAttempt_sieveEn : (countAttempt s).sieveEn = s.sieveEn := rfl
@[simp] theorem countAttempt_engine : (countAttempt s).engine = s.engine := rfl
@[simp] theorem countAttempt_boolFlag : (countAttempt s).boolFlag = s.boolFlag := rfl
@[simp] theorem countAttempt_cmd : (countAttempt s).cmd = s.cmd := rfl
@[simp] theorem countAttempt_err : (countAttempt s).err = s.err := rfl
@[simp] theorem countAttempt_errInfo : (countAttempt s).errInfo = s.errInfo := rfl
@[simp] theorem countAttempt_rounds : (countAttempt s).rounds = s.rounds := rfl
@[simp] theorem countAttempt_limit : (countAttempt s).limit = s.limit := rfl
@[simp] theorem countAttempt_bits : (countAttempt s).bits = s.bits := rfl
@[simp] theorem countAttempt_attempts : (countAttempt s).attempts = s.attempts + 1#32 := rfl
@[simp] theorem countAttempt_predctl : (countAttempt s).predctl = s.predctl := rfl
@[simp] theorem countAttempt_fcnt : (countAttempt s).fcnt = s.fcnt := rfl
@[simp] theorem countAttempt_irqEn : (countAttempt s).irqEn = s.irqEn := rfl
@[simp] theorem countAttempt_irqStat : (countAttempt s).irqStat = s.irqStat := rfl
@[simp] theorem countAttempt_ctx : (countAttempt s).ctx = s.ctx := rfl
@[simp] theorem countAttempt_par : (countAttempt s).par = s.par := rfl
@[simp] theorem countAttempt_inputs : (countAttempt s).inputs = s.inputs := rfl
@[simp] theorem countAttempt_resp : (countAttempt s).resp = s.resp := rfl
@[simp] theorem countAttempt_rstLow : (countAttempt s).rstLow = s.rstLow := rfl
@[simp] theorem countAttempt_erroredReads : (countAttempt s).erroredReads = s.erroredReads := rfl

end

section
variable (s : State)

@[simp] theorem resetAll_x : (resetAll s).x = Vector.replicate 16 0 := rfl
@[simp] theorem resetAll_p : (resetAll s).p = Vector.replicate 4 0 := rfl
@[simp] theorem resetAll_f : (resetAll s).f = Vector.replicate 8 0 := rfl
@[simp] theorem resetAll_sieveEn : (resetAll s).sieveEn = false := rfl
@[simp] theorem resetAll_engine : (resetAll s).engine = .idle := rfl
@[simp] theorem resetAll_boolFlag : (resetAll s).boolFlag = false := rfl
@[simp] theorem resetAll_cmd : (resetAll s).cmd = 0#32 := rfl
@[simp] theorem resetAll_err : (resetAll s).err = 0#8 := rfl
@[simp] theorem resetAll_errInfo : (resetAll s).errInfo = 0#32 := rfl
@[simp] theorem resetAll_rounds : (resetAll s).rounds = 0#32 := rfl
@[simp] theorem resetAll_limit : (resetAll s).limit = 0#32 := rfl
@[simp] theorem resetAll_bits : (resetAll s).bits = 0#32 := rfl
@[simp] theorem resetAll_attempts : (resetAll s).attempts = 0#32 := rfl
@[simp] theorem resetAll_predctl : (resetAll s).predctl = 0#4 := rfl
@[simp] theorem resetAll_fcnt : (resetAll s).fcnt = 0#4 := rfl
@[simp] theorem resetAll_irqEn : (resetAll s).irqEn = 0#2 := rfl
@[simp] theorem resetAll_irqStat : (resetAll s).irqStat = 0#2 := rfl
@[simp] theorem resetAll_ctx : (resetAll s).ctx = Ctx.zero := rfl
@[simp] theorem resetAll_par : (resetAll s).par = s.par := rfl
@[simp] theorem resetAll_inputs : (resetAll s).inputs = s.inputs := rfl
@[simp] theorem resetAll_resp : (resetAll s).resp = s.resp := rfl
@[simp] theorem resetAll_rstLow : (resetAll s).rstLow = false := rfl
@[simp] theorem resetAll_erroredReads : (resetAll s).erroredReads = s.erroredReads := rfl

end

end Sys2Proof.Machine
end

