-- ==== Sys2Proof/Laws/Bus.lean ====
section
/-! SUPPORT. The address map of R61 to R64 as equations, and what one access can do. -/

namespace Sys2Proof.Machine

/-- Word `j` of `x[i]` is where R62 puts it. -/
theorem targetOf_xOffset {ww j : Nat} (i : Fin 16) (hj : j < ww) (hw : ww ≤ 256) :
    targetOf ww (xOffset i j) = some (.x i j) := by
  have hi := i.isLt
  have h1 : ¬ xOffset i j < 0x1000 := by unfold xOffset; omega
  have h2 : xOffset i j % 0x400 / 4 = j := by unfold xOffset; omega
  have h3 : xOffset i j < 0x5000 := by unfold xOffset; omega
  have h4 : (xOffset i j - 0x1000) / 0x400 = i.val := by unfold xOffset; omega
  simp [targetOf, h1, h2, h3, h4, Nat.not_le.mpr hj]

/-- Word `j` of `p[k]` is where R63 puts it. -/
theorem targetOf_pOffset {ww j : Nat} (k : Fin 4) (hj : j < ww) (hw : ww ≤ 256) :
    targetOf ww (pOffset k j) = some (.p k j) := by
  have hk := k.isLt
  have h1 : ¬ pOffset k j < 0x1000 := by unfold pOffset; omega
  have h2 : pOffset k j % 0x400 / 4 = j := by unfold pOffset; omega
  have h3 : ¬ pOffset k j < 0x5000 := by unfold pOffset; omega
  have h3' : pOffset k j < 0x6000 := by unfold pOffset; omega
  have h4 : (pOffset k j - 0x5000) / 0x400 = k.val := by unfold pOffset; omega
  simp [targetOf, h1, h2, h3, h3', h4, Nat.not_le.mpr hj]

/-- Word `j` of `f[k]` is where R64 puts it. -/
theorem targetOf_fOffset {ww j : Nat} (k : Fin 8) (hj : j < ww) (hw : ww ≤ 256) :
    targetOf ww (fOffset k j) = some (.f k j) := by
  have hk := k.isLt
  have h1 : ¬ fOffset k j < 0x1000 := by unfold fOffset; omega
  have h2 : fOffset k j % 0x400 / 4 = j := by unfold fOffset; omega
  have h3 : ¬ fOffset k j < 0x5000 := by unfold fOffset; omega
  have h3' : ¬ fOffset k j < 0x6000 := by unfold fOffset; omega
  have h3'' : fOffset k j < 0x8000 := by unfold fOffset; omega
  have h4 : (fOffset k j - 0x6000) / 0x400 = k.val := by unfold fOffset; omega
  simp [targetOf, h1, h2, h3, h3', h3'', h4, Nat.not_le.mpr hj]

/-- A CSR is at its offset whatever the width (R29). -/
theorem targetOf_csrOffset (ww : Nat) (c : Csr) : targetOf ww c.offset = some (.csr c) := by
  cases c <;> rfl

/-- The parameters are within R6's bounds. -/
theorem ww_bounds (par : Params) : 1 ≤ par.ww ∧ par.ww ≤ 256 := by
  have h := par.legal
  simp only [Config.legalParams, Bool.and_eq_true, decide_eq_true_eq] at h
  exact h.1.1

/-- An access can only answer: refused while `rst_n` is low, else a read or a write with its response. -/
theorem busAccess_cases (a : Access) (s : State) :
    (s.rstLow = true ∧ busAccess a s = .refused .accessDuringReset) ∨
      (s.rstLow = false ∧ a.write = none ∧ busAccess a s = .next (busRead a s)) ∨
      (s.rstLow = false ∧ ∃ d, a.write = some d ∧ busAccess a s = .next (busWrite a d s)) := by
  unfold busAccess
  cases hr : s.rstLow
  · cases hw : a.write
    · simp
    · simp
  · simp

/-- A read answers and changes nothing else but, for an errored one, the count that picks free data (R69, R70). -/
theorem busRead_cases (a : Access) (s : State) :
    (∃ d, busRead a s = { s with resp := some (.data d) }) ∨
      busRead a s =
        { s with
          resp := some (.readError (Config.erroredReadData s.erroredReads))
          erroredReads := s.erroredReads + 1 } := by
  unfold busRead
  split
  · exact .inl ⟨_, rfl⟩
  · exact .inr rfl

/-- A write takes effect at its target, or is errored and changes nothing (R70). -/
theorem busWrite_cases (a : Access) (d : Word) (s : State) :
    (∃ tgt t, a.target s.par.ww = some tgt ∧ targetWrite tgt d s = some t ∧
        busWrite a d s = { t with resp := some .written }) ∨
      busWrite a d s = { s with resp := some .writeError } := by
  unfold busWrite
  cases ht : a.target s.par.ww with
  | none => exact .inr rfl
  | some tgt =>
    cases hw : targetWrite tgt d s with
    | none => exact .inr (by simp [hw])
    | some t => exact .inl ⟨tgt, t, rfl, hw, by simp [hw]⟩

end Sys2Proof.Machine
end

