-- ==== Sys2Proof/Laws/Draw.lean ====
section
/-! SUPPORT. Everything the engine can do with an answer, said once, and the induction over the answers it takes (R80). -/

namespace Sys2Proof.Machine

/-- The destination of the command that stands at a draw. -/
def Wait.rd? : Wait → Option Reg
  | .randodd rd _ => some rd
  | .mrtest _ _ => none
  | .primegenCandidate rd _ => some rd
  | .primegenBase rd _ _ _ => some rd
  | .genfind _ rd _ => some rd

/-- `t` is `s` after one move of a command with destination `rd?`: it has ended with its result, ended with a Boolean,
faulted, or placed a draw; before that it may have counted an attempt. -/
def MovesTo (rd? : Option Reg) (s t : State) : Prop :=
  ∃ n : Word,
    (∃ rd v, rd? = some rd ∧ t = finishValue rd v { s with attempts := n }) ∨
      (∃ b, rd? = none ∧ t = finishBool b { s with attempts := n }) ∨
      (∃ flt, t = raise flt { s with attempts := n }) ∨
      (∃ w : Wait, w.rd? = rd? ∧ t = placeDraw w { s with attempts := n })

theorem movesTo_finishValue (rd : Reg) (v : Nat) (s : State) : MovesTo (some rd) s (finishValue rd v s) :=
  ⟨s.attempts, .inl ⟨rd, v, rfl, rfl⟩⟩

theorem movesTo_raise (rd? : Option Reg) (flt : CommandFault) (s : State) : MovesTo rd? s (raise flt s) :=
  ⟨s.attempts, .inr (.inr (.inl ⟨flt, rfl⟩))⟩

theorem movesTo_placeDraw (w : Wait) (s : State) : MovesTo w.rd? s (placeDraw w s) :=
  ⟨s.attempts, .inr (.inr (.inr ⟨w, rfl, rfl⟩))⟩

theorem movesTo_placeDraw_counted (w : Wait) (s : State) : MovesTo w.rd? s (placeDraw w (countAttempt s)) :=
  ⟨s.attempts + 1#32, .inr (.inr (.inr ⟨w, rfl, rfl⟩))⟩

/-- An answer to a range draw: what its use does, or the fault `EntropyRange` (R79). -/
theorem movesTo_rangeAnswer {rd? : Option Reg} {lo hi v : Nat} {s use : State} (h : MovesTo rd? s use) :
    MovesTo rd? s (rangeAnswer lo hi v s use) := by
  unfold rangeAnswer
  split
  · exact h
  · exact movesTo_raise ..

theorem movesTo_mrtestRound (n left a : Nat) (s : State) : MovesTo none s (mrtestRound n left a s) := by
  unfold mrtestRound
  split
  · split
    · exact ⟨s.attempts + 1#32, .inr (.inl ⟨true, rfl, rfl⟩)⟩
    · exact movesTo_placeDraw_counted (.mrtest n (left - 1)) s
  · exact ⟨s.attempts + 1#32, .inr (.inl ⟨false, rfl, rfl⟩)⟩

theorem movesTo_primegenAttempt (rd : Reg) (len : Nat) (s : State) :
    MovesTo (some rd) s (primegenAttempt rd len s) := by
  unfold primegenAttempt
  split
  · exact movesTo_placeDraw_counted (.primegenCandidate rd len) s
  · exact movesTo_raise ..

theorem movesTo_primegenJudge (rd : Reg) (len c : Nat) (s : State) :
    MovesTo (some rd) s (primegenJudge rd len c s) := by
  unfold primegenJudge
  split
  · exact movesTo_finishValue ..
  · exact movesTo_primegenAttempt ..

theorem movesTo_primegenTest (rd : Reg) (len c : Nat) (s : State) :
    MovesTo (some rd) s (primegenTest rd len c s) := by
  unfold primegenTest
  split
  · exact movesTo_primegenJudge ..
  · exact movesTo_primegenAttempt ..
  · exact movesTo_placeDraw (.primegenBase rd len c s.ctx.rounds.toNat) s

theorem movesTo_primegenCandidate (rd : Reg) (len v : Nat) (s : State) :
    MovesTo (some rd) s (primegenCandidate rd len v s) := by
  unfold primegenCandidate primegenFilter
  split
  · exact movesTo_primegenAttempt ..
  · exact movesTo_primegenTest ..

theorem movesTo_primegenRound (rd : Reg) (len c left a : Nat) (s : State) :
    MovesTo (some rd) s (primegenRound rd len c left a s) := by
  unfold primegenRound
  split
  · split
    · exact movesTo_primegenJudge ..
    · exact movesTo_placeDraw (.primegenBase rd len c (left - 1)) s
  · exact movesTo_primegenAttempt ..

theorem movesTo_genfindAttempt (mode : Mode) (rd : Reg) (p : Nat) (s : State) :
    MovesTo (some rd) s (genfindAttempt mode rd p s) := by
  unfold genfindAttempt
  split
  · exact movesTo_placeDraw_counted (.genfind mode rd p) s
  · exact movesTo_raise ..

theorem movesTo_genfindTry (mode : Mode) (rd : Reg) (p g : Nat) (s : State) :
    MovesTo (some rd) s (genfindTry mode rd p g s) := by
  unfold genfindTry
  split
  · exact movesTo_finishValue ..
  · exact movesTo_genfindAttempt ..

/-- All that the engine can do with an answer to the draw it stands at. -/
theorem movesTo_resume (w : Wait) (v : Nat) (s : State) : MovesTo w.rd? s (resume w v s) := by
  cases w with
  | randodd rd len => exact movesTo_finishValue ..
  | mrtest n left => exact movesTo_rangeAnswer (movesTo_mrtestRound ..)
  | primegenCandidate rd len => exact movesTo_primegenCandidate ..
  | primegenBase rd len c left => exact movesTo_rangeAnswer (movesTo_primegenRound ..)
  | genfind mode rd p => exact movesTo_rangeAnswer (movesTo_genfindTry ..)

/-- With no draw outstanding no answer is taken. -/
theorem serve_of_not_waiting {s : State} (h : ∀ w, s.engine ≠ .waiting w) (l : List Input) :
    serve s l = { s with inputs := l } := by
  match l with
  | [] => rfl
  | .answer v :: rest => cases he : s.engine <;> simp_all [serve]
  | .tick :: rest => rfl
  | .access a :: rest => rfl
  | .lateAnswer v :: rest => rfl
  | .sameCycle a ans :: rest => rfl
  | .rstN level :: rest => rfl

/-- A waiting engine takes the answer that comes next. -/
theorem serve_answer {s : State} {w : Wait} (h : s.engine = .waiting w) (v : Nat) (rest : List Input) :
    serve s (.answer v :: rest) = serve (resume w (portWord s v) s) rest := by
  simp [serve, h]

@[simp] theorem serve_nil (s : State) : serve s [] = { s with inputs := [] } := rfl
@[simp] theorem serve_finishValue (rd : Reg) (v : Nat) (s : State) (l : List Input) :
    serve (finishValue rd v s) l = { finishValue rd v s with inputs := l } :=
  serve_of_not_waiting (by simp) l
@[simp] theorem serve_finishBool (b : Bool) (s : State) (l : List Input) :
    serve (finishBool b s) l = { finishBool b s with inputs := l } :=
  serve_of_not_waiting (by simp) l
@[simp] theorem serve_raise (flt : CommandFault) (s : State) (l : List Input) :
    serve (raise flt s) l = { raise flt s with inputs := l } :=
  serve_of_not_waiting (by simp) l
@[simp] theorem serve_raiseParam (cause : ParamCause) (s : State) (l : List Input) :
    serve (raiseParam cause s) l = { raiseParam cause s with inputs := l } :=
  serve_of_not_waiting (by simp) l

/-- The induction over the answers a command takes: what holds at its first draw, is kept by taking an answer, and does
not speak of the inputs, holds where it stops. -/
theorem serve_induction {P : State → Prop}
    (hstep : ∀ s w v, P s → s.engine = .waiting w → P (resume w (portWord s v) s))
    (hinputs : ∀ s l, P s → P { s with inputs := l }) (s : State) (l : List Input) (h : P s) : P (serve s l) := by
  induction l generalizing s with
  | nil => exact hinputs s [] h
  | cons i rest ih =>
    by_cases hw : ∃ w, s.engine = .waiting w
    · obtain ⟨w, hw⟩ := hw
      cases i with
      | answer v => rw [serve_answer hw]; exact ih _ (hstep s w v h hw)
      | tick => exact hinputs s _ h
      | access a => exact hinputs s _ h
      | lateAnswer v => exact hinputs s _ h
      | sameCycle a ans => exact hinputs s _ h
      | rstN level => exact hinputs s _ h
    · rw [serve_of_not_waiting (fun w hs => hw ⟨w, hs⟩)]
      exact hinputs s _ h

/-- An answer that arrives is taken by a waiting engine and dropped by any other (R80, R282). -/
theorem takeAnswer_of_waiting {s : State} {w : Wait} (h : s.engine = .waiting w) (v : Nat) :
    takeAnswer v s = serve (resume w (portWord s v) s) s.inputs := by
  simp [takeAnswer, h]

theorem takeAnswer_of_not_waiting {s : State} (h : ∀ w, s.engine ≠ .waiting w) (v : Nat) : takeAnswer v s = s := by
  cases he : s.engine <;> simp_all [takeAnswer]

end Sys2Proof.Machine
end

