-- ==== Sys2Proof/Laws/Ops.lean ====
section
/-! SUPPORT. Reading a register after writing one (R21, R22), and the registers through the shared updates. -/

namespace Sys2Proof.Machine

/-- Reading the file after a write of `x[r]`: the value written there, the old value elsewhere. -/
theorem getElem_setReg (x : Vector Nat 16) (r q : Reg) (v : Nat) :
    (setReg x r v)[q.toNat]'q.isLt = if q = r then v else x[q.toNat]'q.isLt := by
  unfold setReg
  rw [Vector.getElem_set]
  by_cases h : q = r
  · simp [h]
  · have : r.toNat ≠ q.toNat := fun e => h (BitVec.eq_of_toNat_eq e.symm)
    simp [h, this]

/-- `x[q]` after the successful end of a command with destination `rd` (R246). -/
@[simp] theorem reg_finishValue (rd q : Reg) (v : Nat) (s : State) :
    (finishValue rd v s).reg q = if q = rd then v else s.reg q := getElem_setReg s.x rd q v

/-- `x[rd]` after the successful end of a command with destination `rd` (R246). -/
theorem reg_finishValue_self (rd : Reg) (v : Nat) (s : State) : (finishValue rd v s).reg rd = v := by simp

@[simp] theorem reg_accept (cw : Word) (q : Reg) (s : State) : (accept cw s).reg q = s.reg q := rfl
@[simp] theorem reg_finish (q : Reg) (s : State) : (finish s).reg q = s.reg q := rfl
@[simp] theorem reg_finishBool (b : Bool) (q : Reg) (s : State) : (finishBool b s).reg q = s.reg q := rfl
@[simp] theorem reg_raise (flt : CommandFault) (q : Reg) (s : State) : (raise flt s).reg q = s.reg q := rfl
@[simp] theorem reg_placeDraw (w : Wait) (q : Reg) (s : State) : (placeDraw w s).reg q = s.reg q := rfl
@[simp] theorem reg_countAttempt (q : Reg) (s : State) : (countAttempt s).reg q = s.reg q := rfl

/-- What acceptance latches as the sources (R46). -/
@[simp] theorem src1_accept (cw : Word) (s : State) : (accept cw s).src1 = s.reg (fieldRs1 cw) := rfl
@[simp] theorem src2_accept (cw : Word) (s : State) : (accept cw s).src2 = s.reg (fieldRs2 cw) := rfl
@[simp] theorem src3_accept (cw : Word) (s : State) : (accept cw s).src3 = s.reg (fieldRs3 cw) := rfl

/-! What acceptance latches besides the sources (R46), and the parameters through the shared updates. -/

@[simp] theorem latch_cw (cw : Word) (s : State) : (latch cw s).cw = cw := rfl
@[simp] theorem latch_rounds (cw : Word) (s : State) : (latch cw s).rounds = s.rounds := rfl
@[simp] theorem latch_limit (cw : Word) (s : State) : (latch cw s).limit = s.limit := rfl
@[simp] theorem latch_bits (cw : Word) (s : State) : (latch cw s).bits = s.bits := rfl
@[simp] theorem latch_predctl (cw : Word) (s : State) : (latch cw s).predctl = s.predctl := rfl
@[simp] theorem latch_fcnt (cw : Word) (s : State) : (latch cw s).fcnt = s.fcnt := rfl
@[simp] theorem latch_sieveEn (cw : Word) (s : State) : (latch cw s).sieveEn = s.sieveEn := rfl

@[simp] theorem width_accept (cw : Word) (s : State) : (accept cw s).width = s.width := rfl
@[simp] theorem width_placeDraw (w : Wait) (s : State) : (placeDraw w s).width = s.width := rfl
@[simp] theorem width_countAttempt (s : State) : (countAttempt s).width = s.width := rfl
@[simp] theorem factors_accept (cw : Word) (s : State) :
    (accept cw s).factors = s.f.toList.take s.fcnt.toNat := rfl

/-- No engine state is both BUSY and one of the two ends (R26). -/
theorem busy_iff (s : State) : s.busy = true ↔ s.engine = .accepted ∨ ∃ w, s.engine = .waiting w := by
  unfold State.busy
  cases s.engine <;> simp [Engine.busy]

/-- What driving `rst_n` can do: nothing, or the reset state with the level (R280). -/
theorem driveResetPin_cases (level : Bool) (s : State) :
    driveResetPin level s = s ∨ driveResetPin level s = { resetAll s with rstLow := !level } := by
  cases level
  · exact .inr rfl
  · by_cases h : s.rstLow = true
    · exact .inr (by simp [driveResetPin, h, resetAll, State.resetFor])
    · exact .inl (by simp [driveResetPin, h])

end Sys2Proof.Machine
end

