-- ==== Sys2Proof/Laws/PerInstr.lean ====
section
/-! SUPPORT. Facts about every constructor of `Instr` as syntax: its opcode, its must-be-zero fields, its fields in the
word (R91, R92, R94). -/

namespace Sys2Proof

/-- The row of R94 a command belongs to. -/
def Instr.opcode : Instr → Opcode
  | .modmul _ _ _ _ => .modmul
  | .montmul _ _ _ _ => .montmul
  | .montr2 _ _ => .montr2
  | .modexp _ _ _ _ => .modexp
  | .modinv _ _ _ => .modinv
  | .gcd _ _ _ => .gcd
  | .mrtest _ => .mrtest
  | .randodd _ => .randodd
  | .trialdiv _ => .trialdiv
  | .primegen _ _ => .primegen
  | .isgen _ _ _ => .isgen
  | .genfind _ _ _ => .genfind

end Sys2Proof

namespace Sys2Proof.Laws

variable (fn : BitVec 8) (rs3 rs2 rs1 rd : Reg) (op : BitVec 8)

/-- Bit `k` of a word in format C: the bit of the field that stands there (R91). -/
theorem getLsbD_formatC (k : Nat) :
    (formatC fn rs3 rs2 rs1 rd op).getLsbD k =
      if k < 8 then op.getLsbD k
      else if k < 12 then BitVec.getLsbD rd (k - 8)
      else if k < 16 then BitVec.getLsbD rs1 (k - 12)
      else if k < 20 then BitVec.getLsbD rs2 (k - 16)
      else if k < 24 then BitVec.getLsbD rs3 (k - 20)
      else fn.getLsbD (k - 24) := by
  simp only [formatC, BitVec.getLsbD_append]
  split_ifs <;> first | rfl | omega

/-- A field of four bits at `lo` is what format C puts there. -/
theorem extract_formatC (lo : Nat) (r : Reg)
    (h : ∀ i, i < 4 → (formatC fn rs3 rs2 rs1 rd op).getLsbD (lo + i) = BitVec.getLsbD r i) :
    (formatC fn rs3 rs2 rs1 rd op).extractLsb' lo 4 = r := by
  ext i hi
  rw [BitVec.getElem_extractLsb', h i hi, BitVec.getLsbD_eq_getElem hi]

@[simp] theorem fieldOp_formatC : fieldOp (formatC fn rs3 rs2 rs1 rd op) = op := by
  ext i hi
  rw [fieldOp, BitVec.getElem_extractLsb', getLsbD_formatC, Nat.zero_add, if_pos hi, BitVec.getLsbD_eq_getElem hi]

@[simp] theorem fieldRd_formatC : fieldRd (formatC fn rs3 rs2 rs1 rd op) = rd :=
  extract_formatC _ _ _ _ _ _ 8 rd fun i hi => by
    rw [getLsbD_formatC]; split_ifs <;> first | omega | (congr 1; omega)

@[simp] theorem fieldRs1_formatC : fieldRs1 (formatC fn rs3 rs2 rs1 rd op) = rs1 :=
  extract_formatC _ _ _ _ _ _ 12 rs1 fun i hi => by
    rw [getLsbD_formatC]; split_ifs <;> first | omega | (congr 1; omega)

@[simp] theorem fieldRs2_formatC : fieldRs2 (formatC fn rs3 rs2 rs1 rd op) = rs2 :=
  extract_formatC _ _ _ _ _ _ 16 rs2 fun i hi => by
    rw [getLsbD_formatC]; split_ifs <;> first | omega | (congr 1; omega)

@[simp] theorem fieldRs3_formatC : fieldRs3 (formatC fn rs3 rs2 rs1 rd op) = rs3 :=
  extract_formatC _ _ _ _ _ _ 20 rs3 fun i hi => by
    rw [getLsbD_formatC]; split_ifs <;> first | omega | (congr 1; omega)

/-- `fn` of a command with a mode: the mode below six zeros (R91, R94). -/
theorem getLsbD_modeFn (m : Mode) (k : Nat) : (modeFn m).getLsbD k = BitVec.getLsbD m k := by
  simp only [modeFn, BitVec.getLsbD_append]
  split_ifs with h
  · rfl
  · rw [BitVec.getLsbD_of_ge m k (by omega)]; simp

theorem getElem_modeFn (m : Mode) (k : Nat) (h : k < 8) : (modeFn m)[k] = BitVec.getLsbD m k := by
  rw [← BitVec.getLsbD_eq_getElem, getLsbD_modeFn]

@[simp] theorem fieldMode_formatC (m : Mode) : fieldMode (formatC (modeFn m) rs3 rs2 rs1 rd op) = m := by
  ext i hi
  rw [fieldMode, BitVec.getElem_extractLsb', getLsbD_formatC, getLsbD_modeFn, ← BitVec.getLsbD_eq_getElem hi]
  split_ifs <;> first | omega | (congr 1; omega)

end Sys2Proof.Laws

/-! The opcode of a command stands in bits 7:0 of its word. -/
namespace Sys2Proof.Laws.OpcodeInWord

/-- Bits 7:0 of the word are column "op" of the command's row. -/
def Statement (i : Instr) : Prop := fieldOp (encode i) = i.opcode.code

theorem modmul (rd rs1 rs2 rs3 : Reg) : Statement (.modmul rd rs1 rs2 rs3) := fieldOp_formatC ..
theorem montmul (rd rs1 rs2 rs3 : Reg) : Statement (.montmul rd rs1 rs2 rs3) := fieldOp_formatC ..
theorem montr2 (rd rs3 : Reg) : Statement (.montr2 rd rs3) := fieldOp_formatC ..
theorem modexp (rd rs1 rs2 rs3 : Reg) : Statement (.modexp rd rs1 rs2 rs3) := fieldOp_formatC ..
theorem modinv (rd rs1 rs3 : Reg) : Statement (.modinv rd rs1 rs3) := fieldOp_formatC ..
theorem gcd (rd rs1 rs2 : Reg) : Statement (.gcd rd rs1 rs2) := fieldOp_formatC ..
theorem mrtest (rs1 : Reg) : Statement (.mrtest rs1) := fieldOp_formatC ..
theorem randodd (rd : Reg) : Statement (.randodd rd) := fieldOp_formatC ..
theorem trialdiv (rs1 : Reg) : Statement (.trialdiv rs1) := fieldOp_formatC ..
theorem primegen (rd rs1 : Reg) : Statement (.primegen rd rs1) := fieldOp_formatC ..
theorem isgen (mode : Mode) (rs1 rs3 : Reg) : Statement (.isgen mode rs1 rs3) := fieldOp_formatC ..
theorem genfind (mode : Mode) (rd rs3 : Reg) : Statement (.genfind mode rd rs3) := fieldOp_formatC ..

end Sys2Proof.Laws.OpcodeInWord

/-! The register fields a command uses stand where format C puts them. -/
namespace Sys2Proof.Laws.FieldsInWord

/-- Each register field the command uses is read back from its bits of the word. -/
def Statement (i : Instr) : Prop :=
  (∀ r, i.rd? = some r → fieldRd (encode i) = r) ∧ (∀ r, i.rs1? = some r → fieldRs1 (encode i) = r) ∧
    (∀ r, i.rs2? = some r → fieldRs2 (encode i) = r) ∧ (∀ r, i.rs3? = some r → fieldRs3 (encode i) = r)

theorem modmul (rd rs1 rs2 rs3 : Reg) : Statement (.modmul rd rs1 rs2 rs3) := by
  simp [Statement, encode, Instr.rd?, Instr.rs1?, Instr.rs2?, Instr.rs3?]
theorem montmul (rd rs1 rs2 rs3 : Reg) : Statement (.montmul rd rs1 rs2 rs3) := by
  simp [Statement, encode, Instr.rd?, Instr.rs1?, Instr.rs2?, Instr.rs3?]
theorem montr2 (rd rs3 : Reg) : Statement (.montr2 rd rs3) := by
  simp [Statement, encode, Instr.rd?, Instr.rs1?, Instr.rs2?, Instr.rs3?]
theorem modexp (rd rs1 rs2 rs3 : Reg) : Statement (.modexp rd rs1 rs2 rs3) := by
  simp [Statement, encode, Instr.rd?, Instr.rs1?, Instr.rs2?, Instr.rs3?]
theorem modinv (rd rs1 rs3 : Reg) : Statement (.modinv rd rs1 rs3) := by
  simp [Statement, encode, Instr.rd?, Instr.rs1?, Instr.rs2?, Instr.rs3?]
theorem gcd (rd rs1 rs2 : Reg) : Statement (.gcd rd rs1 rs2) := by
  simp [Statement, encode, Instr.rd?, Instr.rs1?, Instr.rs2?, Instr.rs3?]
theorem mrtest (rs1 : Reg) : Statement (.mrtest rs1) := by
  simp [Statement, encode, Instr.rd?, Instr.rs1?, Instr.rs2?, Instr.rs3?]
theorem randodd (rd : Reg) : Statement (.randodd rd) := by
  simp [Statement, encode, Instr.rd?, Instr.rs1?, Instr.rs2?, Instr.rs3?]
theorem trialdiv (rs1 : Reg) : Statement (.trialdiv rs1) := by
  simp [Statement, encode, Instr.rd?, Instr.rs1?, Instr.rs2?, Instr.rs3?]
theorem primegen (rd rs1 : Reg) : Statement (.primegen rd rs1) := by
  simp [Statement, encode, Instr.rd?, Instr.rs1?, Instr.rs2?, Instr.rs3?]
theorem isgen (mode : Mode) (rs1 rs3 : Reg) : Statement (.isgen mode rs1 rs3) := by
  simp [Statement, encode, Instr.rd?, Instr.rs1?, Instr.rs2?, Instr.rs3?]
theorem genfind (mode : Mode) (rd rs3 : Reg) : Statement (.genfind mode rd rs3) := by
  simp [Statement, encode, Instr.rd?, Instr.rs1?, Instr.rs2?, Instr.rs3?]

end Sys2Proof.Laws.FieldsInWord
end

