-- ==== Sys2Proof/Tests/Slice0.lean ====
section
/-! SUPPORT. Tests: the WellFormed smoke, words written out from the spec's encoding (95_test_vectors.md section 2.7), one
command or one access from a small state with the results of 95_test_vectors.md section 2, and for every obligation
with hypotheses a witness that they can be met. -/

namespace Sys2Proof.Tests

open Sys2Proof Sys2Proof.Machine

/-! ## Small states -/

/-- A block of `W = 64`. -/
def par64 : Params := Params.withDefaultSieve 2 (by decide +kernel)

/-- A state with some `x` registers written. -/
def withX (l : List (Reg × Nat)) (s : State) : State := l.foldl (fun t q => { t with x := setReg t.x q.1 q.2 }) s

/-- The reset state with `x[1]`, `x[2]`, `x[3]` written. -/
def regs (a b c : Nat) : State := withX [(1#4, a), (2#4, b), (3#4, c)] State.reset

/-- The reset state of a block of `W = 64` with `x[1]`, `x[2]`, `x[3]` written. -/
def regs64 (a b c : Nat) : State := withX [(1#4, a), (2#4, b), (3#4, c)] (State.resetFor par64)

/-- A state with entropy answers to come. -/
def drawing (vs : List Nat) (s : State) : State := { s with inputs := vs.map .answer }

/-- A command run from the acceptance of its word. -/
def run (i : Instr) (s : State) : Option State :=
  match exec i (accept (encode i) s) with
  | .next t => some t
  | .fault _ => none
  | .refused _ => none

/-- A host access. -/
def access (a : Access) (s : State) : Option State :=
  match busAccess a s with
  | .next t => some t
  | .fault _ => none
  | .refused _ => none

/-- What a test of a result looks at: a register, `STATUS`, `ATTEMPTS` and the pending bits. -/
def result (r : Reg) (t : State) : Nat × Word × Word × BitVec 2 := (t.reg r, t.status, t.attempts, t.irqStat)

/-- What a test of a fault looks at: `STATUS`, `ERR`, `ERRINFO`, `ATTEMPTS`. -/
def report (t : State) : Word × BitVec 8 × Word × Word := (t.status, t.err, t.errInfo, t.attempts)

/-! ## WellFormed: an ill-formed term for its one check -/

theorem test_wellFormed_refuses_isgen_mode3 : (Instr.isgen 3#2 1#4 3#4).wellFormed = false := by decide
theorem test_wellFormed_refuses_genfind_mode3 : (Instr.genfind 3#2 1#4 3#4).wellFormed = false := by decide
theorem test_wellFormed_takes_every_register : (Instr.isgen 2#2 15#4 15#4).wellFormed = true := by decide

/-! ## Decoding: the words of section 2.7 -/

theorem test_decode_modmul : decode 0x00210910#32 = .ok (.modmul 9#4 0#4 1#4 2#4) := by decide
theorem test_decode_montmul : decode 0x00240511#32 = .ok (.montmul 5#4 0#4 4#4 2#4) := by decide
theorem test_decode_montr2 : decode 0x00200412#32 = .ok (.montr2 4#4 2#4) := by decide
theorem test_decode_modexp : decode 0x00210320#32 = .ok (.modexp 3#4 0#4 1#4 2#4) := by decide
theorem test_decode_modexp_r15 : decode 0x00FFFF20#32 = .ok (.modexp 15#4 15#4 15#4 15#4) := by decide
theorem test_decode_modinv : decode 0x00009A30#32 = .ok (.modinv 10#4 9#4 0#4) := by decide
theorem test_decode_gcd : decode 0x00021331#32 = .ok (.gcd 3#4 1#4 2#4) := by decide
theorem test_decode_mrtest : decode 0x00002040#32 = .ok (.mrtest 2#4) := by decide
theorem test_decode_randodd : decode 0x00000450#32 = .ok (.randodd 4#4) := by decide
theorem test_decode_trialdiv : decode 0x00001051#32 = .ok (.trialdiv 1#4) := by decide
theorem test_decode_primegen : decode 0x0000EF52#32 = .ok (.primegen 15#4 14#4) := by decide
theorem test_decode_isgen_factors : decode 0x01301060#32 = .ok (.isgen 1#2 1#4 3#4) := by decide
theorem test_decode_isgen_safe : decode 0x02F0F060#32 = .ok (.isgen 2#2 15#4 15#4) := by decide
theorem test_decode_genfind_scan : decode 0x00200461#32 = .ok (.genfind 0#2 4#4 2#4) := by decide
theorem test_decode_genfind_safe : decode 0x02200461#32 = .ok (.genfind 2#2 4#4 2#4) := by decide

theorem test_decode_unknown_opcodes :
    decode 0x00000000#32 = .error .unknownOpcode ∧
    decode 0xFFFFFFFF#32 = .error .unknownOpcode ∧
    decode 0x00000013#32 = .error .unknownOpcode ∧
    decode 0x00210321#32 = .error .unknownOpcode ∧
    decode 0x00000062#32 = .error .unknownOpcode := by decide
theorem test_decode_must_be_zero :
    decode 0x80210910#32 = .error .mustBeZero ∧
    decode 0x00211412#32 = .error .mustBeZero ∧
    decode 0x00019A30#32 = .error .mustBeZero ∧
    decode 0x00121331#32 = .error .mustBeZero ∧
    decode 0x00010040#32 = .error .mustBeZero ∧
    decode 0x00001450#32 = .error .mustBeZero ∧
    decode 0x00100051#32 = .error .mustBeZero ∧
    decode 0x00012052#32 = .error .mustBeZero ∧
    decode 0x00001160#32 = .error .mustBeZero ∧
    decode 0x07200461#32 = .error .mustBeZero := by decide
theorem test_decode_reserved_mode :
    decode 0x03200461#32 = .error .reservedMode ∧
    decode 0x03001060#32 = .error .reservedMode := by decide
theorem test_decodeTableWord : decodeTableWord 32 0x00021331 = some (.gcd 3#4 1#4 2#4) := by decide
theorem test_pseudo_modsqr : encode (.modsqr 3#4 1#4 2#4) = 0x00211310#32 := by decide

/-! ## Commands: results and faults of sections 2.1 to 2.6 -/

theorem test_modmul_exact_product :
    (run (.modmul 9#4 1#4 2#4 3#4) (regs 0xFFFFFFFF 0xFFFFFFFF 0xFFFFFFFE)).map (result 9#4)
      = some (1, 2#32, 0#32, 1#2) := by decide +kernel
theorem test_modmul_zero_modulus :
    (run (.modmul 9#4 1#4 2#4 3#4) (regs 3 5 0)).map report = some (4#32, 1#8, 1#32, 0#32) := by decide +kernel
theorem test_montmul_w32 :
    (run (.montmul 3#4 1#4 2#4 3#4) (regs 3 5 7)).map (result 3#4) = some (2, 2#32, 0#32, 1#2) := by decide +kernel
theorem test_montmul_w64 :
    (run (.montmul 3#4 1#4 2#4 3#4) (regs64 3 5 7)).map (result 3#4) = some (4, 2#32, 0#32, 1#2) := by decide +kernel
theorem test_montr2_w32 :
    (run (.montr2 3#4 3#4) (regs 0 0 7883)).map (result 3#4) = some (271, 2#32, 0#32, 1#2) := by decide +kernel
theorem test_montr2_even_modulus :
    (run (.montr2 4#4 3#4) (regs 0 0 8)).map report = some (4#32, 1#8, 2#32, 0#32) := by decide +kernel
theorem test_modexp :
    (run (.modexp 1#4 1#4 2#4 3#4) (regs 4 13 497)).map (result 1#4) = some (445, 2#32, 0#32, 1#2) := by
  decide +kernel
theorem test_modexp_modulus_one :
    (run (.modexp 1#4 1#4 2#4 3#4) (regs 5 0 1)).map (result 1#4) = some (0, 2#32, 0#32, 1#2) := by decide +kernel
theorem test_modinv :
    (run (.modinv 4#4 1#4 3#4) (regs 17 0 3120)).map (result 4#4) = some (2753, 2#32, 0#32, 1#2) := by
  decide +kernel
theorem test_modinv_no_inverse :
    (run (.modinv 4#4 1#4 3#4) (regs 14 0 21)).map report = some (4#32, 4#8, 7#32, 0#32) := by decide +kernel
theorem test_gcd :
    (run (.gcd 4#4 1#4 2#4) (regs 7900 7948 0)).map (result 4#4) = some (4, 2#32, 0#32, 1#2) := by decide +kernel
theorem test_gcd_zero :
    (run (.gcd 4#4 1#4 2#4) (regs 0 0 0)).map (result 4#4) = some (0, 2#32, 0#32, 1#2) := by decide +kernel
theorem test_mrtest_composite :
    (run (.mrtest 1#4) (drawing [50, 2] { regs 561 0 0 with rounds := 2#32 })).map (result 1#4)
      = some (561, 2#32, 2#32, 1#2) := by decide +kernel
theorem test_mrtest_entropy_range :
    (run (.mrtest 1#4) (drawing [5, 1] { regs 13 0 0 with rounds := 2#32 })).map report
      = some (4#32, 0x12#8, 0#32, 1#32) := by decide +kernel
theorem test_randodd :
    (run (.randodd 4#4) (drawing [0x5A] { regs 0 0 0 with bits := 8#32 })).map (result 4#4)
      = some (0xDB, 2#32, 0#32, 1#2) := by decide +kernel
theorem test_randodd_bits_above_width :
    (run (.randodd 4#4) { regs 0 0 0 with bits := 33#32 }).map report = some (4#32, 1#8, 4#32, 0#32) := by
  decide +kernel
theorem test_trialdiv_prime : (run (.trialdiv 1#4) (regs 251 0 0)).map (result 1#4) = some (251, 0xA#32, 0#32, 1#2) := by
  decide +kernel
theorem test_trialdiv_square : (run (.trialdiv 1#4) (regs 63001 0 0)).map (result 1#4) = some (63001, 2#32, 0#32, 1#2) := by
  decide +kernel
/-- Vector C of section 2.5. -/
theorem test_primegen :
    (run (.primegen 4#4 1#4) (drawing [0x1ECB, 2, 0x1EDD, 3]
      { regs 0x1FFF 0 0 with
        rounds := 1#32, limit := 2#32, sieveEn := true, predctl := 2#4, p := #v[7, 0, 0, 0] })).map (result 4#4)
      = some (7901, 2#32, 2#32, 1#2) := by decide +kernel
/-- Vector D of section 2.5. -/
theorem test_primegen_exhausted :
    (run (.primegen 4#4 1#4) (drawing [0x1, 0x5]
      { regs 0xFF 0 0 with rounds := 1#32, limit := 2#32, sieveEn := true })).map report
      = some (4#32, 3#8, 2#32, 2#32) := by decide +kernel
theorem test_isgen_safe :
    (run (.isgen 2#2 1#4 3#4) (regs 2 0 28499)).map (result 1#4) = some (2, 0xA#32, 0#32, 1#2) := by decide +kernel
theorem test_isgen_bad_factor :
    (run (.isgen 1#2 1#4 3#4) { regs 2 0 7 with fcnt := 2#4, f := #v[2, 1, 0, 0, 0, 0, 0, 0] }).map report
      = some (4#32, 1#8, 0x107#32, 0#32) := by decide +kernel
theorem test_genfind_factors :
    (run (.genfind 1#2 4#4 3#4) (drawing [3, 4, 6, 5]
      { regs 0 0 7883 with limit := 5#32, fcnt := 3#4, f := #v[2, 7, 563, 0, 0, 0, 0, 0] })).map (result 4#4)
      = some (5, 2#32, 4#32, 1#2) := by decide +kernel
theorem test_genfind_no_budget :
    (run (.genfind 2#2 4#4 3#4) (regs 0 0 7)).map report = some (4#32, 0x11#8, 0#32, 0#32) := by decide +kernel

/-! ## The bus window, reset, the interrupt: accesses of section 2.7 -/

theorem test_param_w64 :
    (access (memRead 0x004) (State.resetFor par64)).map State.resp = some (some (.data 0x48100002#32)) := by
  decide +kernel
theorem test_fcnt_has_four_bits :
    ((access (memWrite 0x030 0xFFFFFFFF#32) State.reset).bind (access (memRead 0x030))).map State.resp
      = some (some (.data 0xF#32)) := by decide +kernel
theorem test_ctrl_without_srst :
    ((access (memWrite 0x008 0x7FFFFFFF#32) State.reset).bind (access (memRead 0x008))).map State.resp
      = some (some (.data 1#32)) := by decide +kernel
theorem test_srst :
    (access (memWrite 0x008 0x80000001#32) (accept 0x00021331#32 (regs 1 2 3))).map
      (fun t => (t.reg 1#4, t.sieveEn, t.status, t.resp)) = some (0, false, 0#32, some .written) := by decide +kernel
theorem test_x3_little_endian_w64 :
    ((access (memWrite 0x1C00 0x89ABCDEF#32) (State.resetFor par64)).bind
      (access (memWrite 0x1C04 0x01234567#32))).map (fun t => t.reg 3#4) = some 0x0123456789ABCDEF := by
  decide +kernel
theorem test_tail_of_slot_errors :
    (access (memWrite 0x1C04 1#32) State.reset).map State.resp = some (some .writeError) := by decide +kernel
theorem test_last_factor_register :
    (access (memWrite 0x7C00 9#32) State.reset).map State.f = some #v[0, 0, 0, 0, 0, 0, 0, 9] := by decide +kernel
theorem test_halfword_errors :
    (access ⟨0x1000, some 1#32, 3#4, false⟩ State.reset).map State.resp = some (some .writeError) := by
  decide +kernel
theorem test_irq_stat_write_one_to_clear :
    (access (memWrite 0x038 1#32) { State.reset with irqStat := 3#2 }).map State.irqStat = some 2#2 := by
  decide +kernel

/-- One step, where it answers a next state. -/
def next (s : State) : Option State :=
  match step s with
  | .next t => some t
  | .fault _ => none
  | .refused _ => none

/-- The next step runs the word placed for it: GCD of the reset registers is 0, and the command is done. -/
theorem test_withFetchWord :
    (next (State.reset.withFetchWord 32 0x00021331)).map (fun t => (t.cmd, t.reg 3#4, t.status, t.inputs))
      = some (0x00021331#32, 0, 2#32, []) := by decide +kernel

/-- A command that waits: `STATUS` shows BUSY and ENTWAIT, and the answer as a step of its own ends it. -/
theorem test_answer_later :
    (run (.randodd 4#4) { regs 0 0 0 with bits := 8#32 }).map (fun t => (t.status, (takeAnswer 0x5A t).reg 4#4))
      = some (0x11#32, 0xDB) := by decide +kernel

/-! ## Witnesses: every obligation with hypotheses can have them met -/

theorem witness_DecodeEncodeRoundTrip :
    (Instr.modexp 15#4 15#4 15#4 15#4).wellFormed = true ∧ (Instr.genfind 2#2 0#4 15#4).wellFormed = true := by decide

theorem witness_DecodedWordIsItsEncoding : decode 0x02F0F060#32 = .ok (.isgen 2#2 15#4 15#4) := by decide

/-- An unknown opcode (finding 1). -/
theorem witness_IllegalWordEndsInFault_opcode : ∀ i : Instr, i.wellFormed = true → encode i ≠ 0x00000013#32 := by
  intro i _ h
  have h := congrArg fieldOp h
  cases i <;> simp only [encode, Laws.fieldOp_formatC] at h <;> revert h <;> decide

/-- A must-be-zero field, `rs1` of MONTR2, that is not zero (finding 2). -/
theorem witness_IllegalWordEndsInFault_mbz : ∀ i : Instr, i.wellFormed = true → encode i ≠ 0x00001012#32 := by
  intro i _ h
  have h1 := congrArg fieldOp h
  have h2 := congrArg fieldRs1 h
  cases i <;> simp only [encode, Laws.fieldOp_formatC, Laws.fieldRs1_formatC] at h1 h2 <;>
    first
    | (revert h1; decide)
    | (revert h2; decide)

/-- The reserved mode of GENFIND (finding 3). -/
theorem witness_IllegalWordEndsInFault_mode : ∀ i : Instr, i.wellFormed = true → encode i ≠ 0x03200461#32 := by
  intro i hi h
  have h1 := congrArg fieldOp h
  cases i <;> simp only [encode, Laws.fieldOp_formatC] at h1 <;> first | (revert h1; decide) | skip
  rename_i mode rd rs3
  have h2 : mode = 3#2 := by
    have h2 := congrArg fieldMode h
    rw [encode, Laws.fieldMode_formatC] at h2
    rw [h2]; decide
  subst h2
  revert hi
  decide +revert

/-- One word for each finding of R95: opcodes at the ends of the range and next to a listed one; `rs1` of MONTR2, and bit 31
of ISGEN beside mode 3, not zero; mode 3 of both commands. -/
theorem witness_IllegalWordEndsInFault_findings :
    (∀ row ∈ mustBeZeroBits, (0x00#8 ≠ row.1 ∧ 0x13#8 ≠ row.1) ∧ 0x62#8 ≠ row.1 ∧ 0xFF#8 ≠ row.1) ∧
    ((0x12#8, 0xFF0FF000#32) ∈ mustBeZeroBits ∧ (0x00001012#32).extractLsb' 0 8 = 0x12#8 ∧
      0x00001012#32 &&& 0xFF0FF000#32 ≠ 0#32) ∧
    ((0x60#8, 0xFC0F0F00#32) ∈ mustBeZeroBits ∧ (0x83000060#32).extractLsb' 0 8 = 0x60#8 ∧
      0x83000060#32 &&& 0xFC0F0F00#32 ≠ 0#32 ∧ 0x03F0F060#32 &&& 0xFC0F0F00#32 = 0#32 ∧
      (0x03F0F060#32).extractLsb' 24 2 = 3#2) ∧
    ((0x61#8, 0xFC0FF000#32) ∈ mustBeZeroBits ∧ (0x03F00F61#32).extractLsb' 0 8 = 0x61#8 ∧
      0x03F00F61#32 &&& 0xFC0FF000#32 = 0#32 ∧ (0x03F00F61#32).extractLsb' 24 2 = 3#2) :=
  ⟨by simp [mustBeZeroBits], ⟨by simp [mustBeZeroBits], by decide, by decide⟩,
    ⟨by simp [mustBeZeroBits], by decide, by decide, by decide, by decide⟩,
    by simp [mustBeZeroBits], by decide, by decide, by decide⟩

/-- The state right after the acceptance of a word. -/
def accepted (cw : Word) : State := accept cw State.reset

theorem witness_StepRunsDecodedCommand :
    ((accepted 0x00021331#32).engine = .accepted ∧ (accepted 0x00021331#32).inputs = [] ∧
      decode (accepted 0x00021331#32).ctx.cw = .ok (.gcd 3#4 1#4 2#4)) ∧
    ((accepted 0#32).engine = .accepted ∧ ({ accepted 0#32 with inputs := [.tick] } : State).inputs = .tick :: [] ∧
      decode (accepted 0#32).ctx.cw = .error .unknownOpcode) := by decide +kernel

/-- The host is about to access the window. -/
def accessing (a : Access) (s : State) : State := { s with inputs := [.access a] }

/-- Not BUSY in each of its three states. -/
theorem witness_CmdWriteAccepts :
    ∀ e ∈ [Engine.idle, Engine.done, Engine.fault],
      ({ accessing (memWrite 0x010 0#32) State.reset with engine := e } : State).rstLow = false ∧
      ({ accessing (memWrite 0x010 0#32) State.reset with engine := e } : State).busy = false := by decide

/-- A state in which RANDODD stands at its draw. -/
def waitingRandodd : State := placeDraw (.randodd 4#4 8) (accept 0x00000450#32 { State.reset with bits := 8#32 })

/-- A state in which MRTEST of 5 with two rounds stands at its first draw. -/
def waitingMrtest : State :=
  placeDraw (.mrtest 5 2) (accept 0x00001040#32 (withX [(1#4, 5)] { State.reset with rounds := 2#32 }))

theorem witness_CmdWriteWhileBusyIsRefused :
    (accepted 0#32).rstLow = false ∧ (accepted 0#32).busy = true ∧ waitingRandodd.busy = true ∧
      (accessing (memWrite 0x010 7#32) waitingRandodd).inputs = [.access (memWrite 0x010 7#32)] := by decide

/-- BUSY entered by a `CMD` write; left by a successful end, by a faulting end and by a soft reset. -/
theorem witness_BusyEnteredAndLeft :
    (next (accessing (memWrite 0x010 0#32) State.reset)).map State.busy = some true ∧
    (next (accepted 0x00021331#32)).map State.engine = some .done ∧
    (next (accepted 0#32)).map State.engine = some .fault ∧
    (next (accessing (memWrite 0x008 0x80000000#32) waitingRandodd)).map State.engine = some .idle := by decide +kernel

theorem witness_ModmulResult : (regs 1 2 0).reg 3#4 = 0 ∧ (regs 1 2 1).reg 3#4 ≠ 0 := by decide

theorem witness_MontmulResult :
    (regs 1 2 0).reg 3#4 = 0 ∧ ((regs 1 2 2).reg 3#4 ≠ 0 ∧ (regs 1 2 2).reg 3#4 % 2 = 0) ∧
      (regs 1 2 1).reg 3#4 % 2 = 1 ∧ (regs 1 2 0xFFFFFFFF).reg 3#4 % 2 = 1 := by decide

theorem witness_Montr2Result :
    (regs 1 2 0).reg 3#4 = 0 ∧ ((regs 1 2 2).reg 3#4 ≠ 0 ∧ (regs 1 2 2).reg 3#4 % 2 = 0) ∧
      (regs 1 2 1).reg 3#4 % 2 = 1 := by decide

theorem witness_BitSerialMontgomeryIsTheProduct :
    (1 % 2 = 1 ∧ 1 < 2 ^ 1 ∧ 0 < 1) ∧ (0xFFFFFFFF % 2 = 1 ∧ 0xFFFFFFFF < 2 ^ 32 ∧ 0xFFFFFFFE < 0xFFFFFFFF) := by decide

theorem witness_MontgomeryFormLaws : 1 % 2 = 1 ∧ 7883 % 2 = 1 := by decide

theorem witness_ModexpResult : (regs 5 0 0).reg 3#4 = 0 ∧ (regs 5 0 1).reg 3#4 ≠ 0 := by decide

theorem witness_ModinvResult :
    (regs 3 0 0).reg 3#4 = 0 ∧
    ((regs 4 0 2).reg 3#4 ≠ 0 ∧ Nat.gcd ((regs 4 0 2).reg 1#4) ((regs 4 0 2).reg 3#4) ≠ 1) ∧
    ((regs 0 0 1).reg 3#4 ≠ 0 ∧ Nat.gcd ((regs 0 0 1).reg 1#4) ((regs 0 0 1).reg 3#4) = 1) ∧
    ((regs 3 0 7).reg 3#4 ≠ 0 ∧ Nat.gcd ((regs 3 0 7).reg 1#4) ((regs 3 0 7).reg 3#4) = 1) := by decide

/-- True after two rounds, true by the lookup. -/
theorem witness_MrtestResult_true : MrAccepts 2 5 [2, 3] ∧ MrAccepts 1 2 [] := by
  refine ⟨.inr ⟨by decide, by decide, rfl, ?_⟩, .inl ⟨.inl rfl, rfl⟩⟩
  intro a ha
  have h : a = 2 ∨ a = 3 := by simpa using ha
  rcases h with rfl | rfl
  · exact ⟨⟨by decide, by decide⟩, 2, 1, rfl, rfl, .inr ⟨1, by decide, rfl⟩⟩
  · exact ⟨⟨by decide, by decide⟩, 2, 1, rfl, rfl, .inr ⟨1, by decide, rfl⟩⟩

/-- `7 - 1 = 2 * 3`, and `2 ^ 3` is 1 modulo 7. -/
theorem passesRound_seven_two : PassesRound 7 2 := ⟨1, 3, rfl, rfl, .inl rfl⟩

/-- `9 - 1 = 2 ^ 3`, and 2, 4, 7 are neither 1 first nor ever 8 modulo 9. -/
theorem not_passesRound_nine_two : ¬ PassesRound 9 2 := by
  rintro ⟨e, d, h, hd, hp⟩
  have h : 2 ^ e * d = 8 := h.symm
  have he : e < 4 := by
    by_contra hc
    have h16 : 2 ^ 4 ≤ 2 ^ e := Nat.pow_le_pow_right (by decide) (by omega)
    have hd1 : 1 ≤ d := by omega
    nlinarith
  have hd' : d = 1 ∧ e = 3 := by interval_cases e <;> omega
  obtain ⟨rfl, rfl⟩ := hd'
  rcases hp with hp | ⟨r, hr, hp⟩
  · revert hp; decide
  · interval_cases r <;> revert hp <;> decide

/-- False by the lookup below 2 and for an even number, and by the first base. -/
theorem witness_MrtestResult_false : MrRejects 1 1 [] ∧ MrRejects 1 4 [] ∧ MrRejects 2 9 [2] :=
  ⟨.inl ⟨.inl (by decide), rfl⟩, .inl ⟨.inr ⟨by decide, by decide⟩, rfl⟩,
    .inr ⟨by decide, by decide, [], 2, rfl, by decide, by simp, ⟨by decide, by decide⟩, not_passesRound_nine_two⟩⟩

/-- `ROUNDS = 0`; and for 5 with two rounds the base 2 passed and then the base 4, above the range. -/
theorem witness_MrtestResult_faults :
    State.reset.rounds = 0#32 ∧ 5 ≤ (regs 5 0 0).reg 1#4 ∧ [2].length < (2#32).toNat ∧ IsBase 5 2 ∧ PassesRound 5 2 ∧
      4 < (regs 5 0 0).par.radix ∧ ¬ IsBase 5 4 ∧ ¬ IsBase 5 1 :=
  ⟨by decide, by decide, by decide, ⟨by decide, by decide⟩, ⟨2, 1, rfl, rfl, .inr ⟨1, by decide, rfl⟩⟩, by decide,
    fun h => absurd h.2 (by decide), fun h => absurd h.1 (by decide)⟩

theorem witness_MrtestResult_state :
    ({ regs 5 0 0 with rounds := 2#32, inputs := [.answer 2, .answer 3] } : State).rounds ≠ 0#32 ∧
    (regs 5 0 0).reg 1#4 < (regs 5 0 0).par.radix ∧
    ({ regs 5 0 0 with rounds := 2#32, inputs := [.answer 2, .answer 3] } : State).inputs
      = answersThen [2, 3] [] := by decide

/-- Both ends of the range of 5; 2, which draws nothing; 5 with its two bases. -/
theorem witness_PrimePassesEveryRound :
    Nat.Prime 5 ∧ IsBase 5 2 ∧ IsBase 5 3 ∧ Nat.Prime ((regs 2 0 0).reg 1#4) ∧
      ([] : List Nat).length = (if (regs 2 0 0).reg 1#4 ≤ 3 then 0 else (2#32).toNat) ∧
      [2, 3].length = (if (regs 5 0 0).reg 1#4 ≤ 3 then 0 else (2#32).toNat) :=
  ⟨by norm_num, ⟨by decide, by decide⟩, ⟨by decide, by decide⟩, Nat.prime_two, by decide, by decide⟩

theorem witness_RandoddResult :
    State.reset.bits.toNat = 0 ∧ State.reset.par.width < (33#32).toNat ∧ 1 ≤ (1#32).toNat ∧
      (32#32).toNat ≤ State.reset.par.width ∧ (drawing [0x5A] State.reset).inputs = .answer 0x5A :: [] := by decide

theorem witness_CandidateShape : (1 : Nat) ≤ 1 ∧ (2 : Nat) ≤ 2 := by decide

theorem witness_FilterNeverRejectsAPrime :
    trialDivPass Params.default.sieve 0 = false ∧ trialDivPass Params.default.sieve 253 = false := by decide +kernel

/-- PRIMEGEN for 3 bits, two rounds, the filter on, the minimum-value floor at 7: 5 fails the floor, 7 is accepted. -/
def searching (limit : Word) (vs : List Nat) : State :=
  { regs 4 0 0 with
    rounds := 1#32, limit := limit, sieveEn := true, predctl := 8#4, p := #v[0, 0, 0, 7]
    inputs := answersThen vs [] }

theorem passesRound_five_two : PassesRound 5 2 := ⟨2, 1, rfl, rfl, .inr ⟨1, by decide, rfl⟩⟩

theorem mrAccepts_five : MrAccepts 1 5 [2] :=
  .inr ⟨by decide, by decide, rfl, by simpa [IsBase] using passesRound_five_two⟩

theorem mrAccepts_seven : MrAccepts 1 7 [2] :=
  .inr ⟨by decide, by decide, rfl, by simpa [IsBase] using passesRound_seven_two⟩

/-- An attempt that the predicate rejects. -/
theorem witness_attemptRejected (limit : Word) (vs : List Nat) : AttemptRejected (searching limit vs) 3 [0, 2] := by
  refine ⟨0, [2], rfl, .inr ⟨fun _ => ?_, .inr ⟨mrAccepts_five, ?_⟩⟩⟩
  · show ¬ SieveRejects Params.default.sieve 5
    rintro ⟨q, hq, h⟩
    revert q
    decide +kernel
  · intro h
    have h7 : 7 ≤ randOdd 3 0 := h.2.2.2 (by show (8#4).getLsbD 3 = true; decide)
    exact absurd h7 (by decide)

/-- An attempt that the filter rejects, for 4 bits: 9. -/
theorem witness_attemptRejected_sieve (limit : Word) (vs : List Nat) :
    AttemptRejected (searching limit vs) 4 [0] :=
  ⟨0, [], rfl, .inl ⟨rfl, ⟨3, by show 3 ∈ Params.default.sieve; decide +kernel, by decide, by decide⟩, rfl⟩⟩

/-- An attempt that Miller-Rabin rejects, the filter off, for 4 bits: 9. -/
theorem witness_attemptRejected_mr (limit : Word) (vs : List Nat) :
    AttemptRejected { searching limit vs with sieveEn := false } 4 [0, 2] :=
  ⟨0, [2], rfl, .inr ⟨fun h => absurd h (by show ¬ false = true; decide), .inl (.inr ⟨by decide, by decide, [], 2, rfl,
    by show 0 < 1; decide, by simp, ⟨by decide, by decide⟩, not_passesRound_nine_two⟩)⟩⟩

theorem witness_attemptAccepted (limit : Word) (vs : List Nat) :
    AttemptAccepted (searching limit vs) 3 7 [2, 2] := by
  refine ⟨2, [2], rfl, rfl, fun _ => ?_, mrAccepts_seven, ?_⟩
  · show ¬ SieveRejects Params.default.sieve 7
    rintro ⟨q, hq, h⟩
    revert q
    decide +kernel
  · exact ⟨fun h => absurd h (by show ¬ (8#4).getLsbD 0 = true; decide),
      fun h => absurd h (by show ¬ (8#4).getLsbD 1 = true; decide),
      fun h => absurd h (by show ¬ (8#4).getLsbD 2 = true; decide), fun _ => Nat.le_refl 7⟩

theorem witness_PrimegenFindsCandidate :
    (searching 2#32 [0, 2, 2, 2]).reg 1#4 ≠ 0 ∧
    (searching 2#32 [0, 2, 2, 2]).reg 1#4 < (searching 2#32 [0, 2, 2, 2]).par.radix ∧
    (searching 2#32 [0, 2, 2, 2]).rounds ≠ 0#32 ∧ bitlen ((searching 2#32 [0, 2, 2, 2]).reg 1#4) = 3 ∧
    [[0, 2]].length < (searching 2#32 [0, 2, 2, 2]).limit.toNat ∧
    (searching 2#32 [0, 2, 2, 2]).inputs = answersThen ([[0, 2]].flatten ++ [2, 2]) [] := by decide

theorem witness_PrimegenExhausted :
    ([[0, 2]].length = (searching 1#32 [0, 2]).limit.toNat ∧
      (searching 1#32 [0, 2]).inputs = answersThen [[0, 2]].flatten []) ∧
    (([] : List (List Nat)).length = (searching 0#32 []).limit.toNat ∧
      (searching 0#32 []).inputs = answersThen ([] : List (List Nat)).flatten []) ∧
    (searching 0#32 []).reg 1#4 ≠ 0 ∧ (searching 0#32 []).rounds ≠ 0#32 := by decide

theorem witness_PrimegenParameterFaults :
    State.reset.reg 1#4 = 0 ∧ (regs 1 0 0).reg 1#4 ≠ 0 ∧ (regs 1 0 0).rounds = 0#32 := by decide

theorem witness_PrimegenGuarantee :
    (run (.primegen 4#4 1#4) (searching 2#32 [0, 2, 2, 2])).map (fun t => (t.engine, t.reg 4#4)) = some (.done, 7) := by
  decide +kernel

/-- A group modulo `p` with the factor 2 listed. -/
def group (p : Nat) : State :=
  { regs 2 0 p with fcnt := 1#4, limit := 1#32, f := #v[2, 0, 0, 0, 0, 0, 0, 0], inputs := [.answer 2] }

theorem groupAccepted_scan : GroupAccepted 0#2 3 (group 3) :=
  ⟨by decide, by decide, fun h => absurd h (by decide), fun h => absurd h (by decide)⟩

theorem groupAccepted_factors : GroupAccepted 1#2 3 (group 3) :=
  ⟨by decide, by decide, fun _ => ⟨by decide, by decide, by decide⟩, fun h => absurd h (by decide)⟩

theorem groupAccepted_safe : GroupAccepted 2#2 5 (group 5) :=
  ⟨by decide, by decide, fun h => absurd h (by decide), fun _ => ⟨by decide, by decide⟩⟩

/-- Each legal mode at its least modulus. -/
theorem witness_IsgenResult :
    GroupAccepted 0#2 ((group 3).reg 3#4) (group 3) ∧ GroupAccepted 1#2 ((group 3).reg 3#4) (group 3) ∧
      GroupAccepted 2#2 ((group 5).reg 3#4) (group 5) :=
  ⟨groupAccepted_scan, groupAccepted_factors, groupAccepted_safe⟩

/-- One state for each clause, at the ends of its range: `p` 2; `FCNT` 0 and 9; the first and the second factor bad; `p`
even, and `p` below 5. -/
theorem witness_GroupParameterFaults :
    (group 2).reg 3#4 < 3 ∧
    (3 ≤ (group 3).reg 3#4 ∧ ({ group 3 with fcnt := 0#4 } : State).fcnt.toNat = 0 ∧
      8 < ({ group 3 with fcnt := 9#4 } : State).fcnt.toNat) ∧
    (3 ≤ (group 8).reg 3#4 ∧ (group 8).fcnt.toNat = 1 ∧ ¬ (group 8).f[(0 : Fin 8)] ∣ (group 8).reg 3#4 - 1) ∧
    (3 ≤ (group 5).reg 3#4 ∧ ({ group 5 with fcnt := 2#4 } : State).fcnt.toNat = 2 ∧
      2 ≤ (group 5).f[(0 : Fin 8)] ∧ (group 5).f[(0 : Fin 8)] ∣ (group 5).reg 3#4 - 1 ∧ (group 5).f[(1 : Fin 8)] < 2) ∧
    (3 ≤ (group 8).reg 3#4 ∧ (group 8).reg 3#4 % 2 = 0) ∧ (3 ≤ (group 3).reg 3#4 ∧ (group 3).reg 3#4 < 5) := by decide

/-- 2 passes SCAN modulo 3; 4 does not pass SAFE modulo 5. -/
theorem passes_two : PassesGenTest 0#2 2 3 (group 3) := by
  refine ⟨by decide, by decide, fun _ k h1 h2 => ?_, fun h => absurd h (by decide), fun h => absurd h (by decide)⟩
  have : k = 1 := by omega
  subst this
  decide

theorem fails_four : ¬ PassesGenTest 2#2 4 5 (group 5) := fun h => absurd (h.2.2.2.2 rfl).2 (by decide)

theorem witness_GenfindFindsGenerator :
    GroupAccepted 0#2 ((group 3).reg 3#4) (group 3) ∧ (group 3).reg 3#4 < (group 3).par.radix ∧
      ([] : List Nat).length < (group 3).limit.toNat ∧ PassesGenTest 0#2 2 ((group 3).reg 3#4) (group 3) ∧
      (group 3).inputs = answersThen ([] ++ [2]) [] :=
  ⟨groupAccepted_scan, by decide, by decide, passes_two, by decide⟩

theorem witness_GenfindExhausted :
    GroupAccepted 2#2 ((group 5).reg 3#4) (group 5) ∧ (group 5).reg 3#4 < (group 5).par.radix ∧
      2 ≤ 4 ∧ 4 ≤ (group 5).reg 3#4 - 1 ∧ ¬ PassesGenTest 2#2 4 ((group 5).reg 3#4) (group 5) ∧
      [4].length = (group 5).limit.toNat ∧
      ({ group 5 with inputs := [.answer 4] } : State).inputs = answersThen [4] [] :=
  ⟨groupAccepted_safe, by decide, by decide, by decide, fails_four, by decide, by decide⟩

theorem witness_FactorTestAgreesWithScan :
    Nat.Prime 3 ∧ (∀ f ∈ [2], 2 ≤ f ∧ f ∣ 3 - 1) ∧ (∀ q, q.Prime → q ∣ 3 - 1 → q ∈ [2]) ∧ Nat.Prime 5 ∧
      Nat.Prime ((5 - 1) / 2) :=
  ⟨by norm_num, by decide, fun q hq h => by simpa using (Nat.prime_dvd_prime_iff_eq hq Nat.prime_two).1 h, by norm_num,
    by norm_num⟩

/-- Below and above the range of MRTEST of 5, which is 2 to 3. -/
theorem witness_AnswerOutsideRangeFaults :
    waitingMrtest.engine = .waiting (.mrtest 5 2) ∧ (Wait.mrtest 5 2).request = .range 2 3 ∧
      1 % waitingMrtest.par.radix < 2 ∧ 3 < 4 % waitingMrtest.par.radix := by decide

theorem witness_UnansweredDrawWaits :
    waitingRandodd.engine = .waiting (.randodd 4#4 8) ∧ waitingRandodd.inputs = [] ∧
    (next (accessing (memRead 0x00C) waitingRandodd)).map State.resp = some (some (.data 0x11#32)) ∧
    (next (accessing (memWrite 0x020 9#32) waitingRandodd)).map State.limit = some 9#32 ∧
    State.reset.request = none ∧ (drawing [7] State.reset).inputs = .answer 7 :: [] := by decide +kernel

/-- The invariant in a state where a command stands at a draw of bits. -/
theorem inv_waitingRandodd : waitingRandodd.Inv where
  operandsFit := ⟨by decide, by decide, by decide, by decide, by decide, by decide⟩
  flagsAgree := ⟨by decide, by decide, by decide⟩
  latched := fun _ => ⟨by decide, by decide, by decide, by decide⟩
  started := by decide
  drawSound := by
    intro w h
    obtain rfl : Wait.randodd 4#4 8 = w := by simpa [waitingRandodd, placeDraw] using h
    exact ⟨by decide, by decide, by decide, by decide, by decide⟩
  resetHeld := by decide

/-- The invariant in a state where a command stands at a draw from a range. -/
theorem inv_waitingMrtest : waitingMrtest.Inv where
  operandsFit := ⟨by decide, by decide, by decide, by decide, by decide, by decide⟩
  flagsAgree := ⟨by decide, by decide, by decide⟩
  latched := fun _ => ⟨by decide, by decide, by decide, by decide⟩
  started := by decide
  drawSound := by
    intro w h
    obtain rfl : Wait.mrtest 5 2 = w := by simpa [waitingMrtest, placeDraw] using h
    exact ⟨⟨1#4, by decide⟩, by decide, by decide, by decide, by decide⟩
  resetHeld := by decide

/-- The invariant right after the acceptance of a command. -/
theorem inv_accepted : (accepted 0x00021331#32).Inv where
  operandsFit := ⟨by decide, by decide, by decide, by decide, by decide, by decide⟩
  flagsAgree := ⟨by decide, by decide, by decide⟩
  latched := fun _ => ⟨by decide, by decide, by decide, by decide⟩
  started := fun _ => by decide
  drawSound := by
    intro w h
    exact absurd h (by simp [accepted, accept])
  resetHeld := by decide

theorem witness_RequestsAreWithinBounds :
    waitingRandodd.Inv ∧ waitingRandodd.request = some (.bits 8) ∧ waitingMrtest.Inv ∧
      waitingMrtest.request = some (.range 2 3) :=
  ⟨inv_waitingRandodd, by decide, inv_waitingMrtest, by decide⟩

/-- A command that waits for its first draw and one that has ended; a first round after which a second base is waited for,
and one that ends the test. -/
theorem witness_AnswersAtOnceOrLaterAgree :
    (run (.randodd 4#4) { State.reset with bits := 8#32 }).map State.busy = some true ∧
    (run (.gcd 4#4 1#4 2#4) (regs 12 18 0)).map State.busy = some false ∧
    waitingMrtest.engine = .waiting (.mrtest 5 2) ∧
    (next { waitingMrtest with inputs := [.answer 2] }).map State.busy = some true ∧
    (next { waitingMrtest with inputs := [.answer 4] }).map State.busy = some false := by decide +kernel

theorem witness_OperandWindowsLocked :
    ∀ off ∈ [0x1000, 0x7FFC, 0x7FFF], (accessing (memRead off) waitingRandodd).rstLow = false ∧
      (accessing (memRead off) waitingRandodd).busy = true ∧ 0x1000 ≤ (memRead off).offset ∧
      (memRead off).offset ≤ 0x7FFF := by decide

theorem witness_OnlyAlignedWordAccesses :
    State.reset.rstLow = false ∧ (memRead 0x1003).offset % 4 ≠ 0 ∧ (⟨0, none, 3#4, false⟩ : Access).lanes ≠ 15#4 ∧
      (⟨0, none, 15#4, true⟩ : Access).burst = true := by decide

/-- The ends of each range: 0x3C, 0xFFF; the first offset of a tail; 0x8000. -/
theorem witness_UnmappedOffsetsError :
    (∀ off ∈ [0x003C, 0x0FFF], 0x003C ≤ (memRead off).offset ∧ (memRead off).offset ≤ 0x0FFF) ∧
    (∀ off ∈ [0x1004, 0x7FFC], 0x1000 ≤ (memRead off).offset ∧
      4 * State.reset.par.ww ≤ (memRead off).offset % 0x400) ∧ 0x8000 ≤ (memRead 0x8000).offset := by decide

theorem witness_ReadOnlyCsrWriteErrors :
    ∀ off ∈ [0x000, 0x004, 0x00C, 0x014, 0x018, 0x028],
      (accessing (memWrite off 1#32) State.reset).inputs = .access (memWrite off 1#32) :: [] ∧
      (accessing (memWrite off 1#32) State.reset).rstLow = false := by decide

/-- After reset `rst_n` is high, which is all these statements ask of the state. -/
theorem witness_StatusShowsTheEngine : State.reset.rstLow = false := rfl
theorem witness_IdAndParamAreConstants : State.reset.rstLow = false := rfl
theorem witness_CsrReadsAlwaysAnswer : State.reset.rstLow = false := rfl
theorem witness_PendingBitsAndInterruptLine : State.reset.rstLow = false := rfl

/-- The first and the last of the writable registers. -/
theorem witness_CsrWritesReadBack :
    State.reset.rstLow = false ∧ (0x7FFFFFFF#32).getLsbD 31 = false ∧
      (access (memWrite 0x008 0x7FFFFFFF#32) State.reset).map State.sieveEn = some true ∧
      (access (memWrite 0x034 0xFFFFFFFF#32) State.reset).map State.irqEn = some 3#2 := by decide

theorem witness_WindowWordsAreTheRegisters :
    State.reset.rstLow = false ∧ State.reset.busy = false ∧ 0 < State.reset.par.ww ∧ 1 < par64.ww := by decide

/-- A block of `W = 64` with a register that holds all ones. -/
theorem witness_RegisterIsTheSumOfItsWords :
    (regs64 0xFFFFFFFFFFFFFFFF 0 0).rstLow = false ∧ (regs64 0xFFFFFFFFFFFFFFFF 0 0).busy = false ∧
      (regs64 0xFFFFFFFFFFFFFFFF 0 0).OperandsFit :=
  ⟨by decide, by decide, by decide +kernel, by decide +kernel, by decide +kernel, by decide +kernel, by decide +kernel,
    by decide +kernel⟩

theorem witness_SoftResetResetsEverything :
    (accessing (memWrite 0x008 0x80000000#32) waitingRandodd).rstLow = false ∧ (0x80000000#32).getLsbD 31 = true := by
  decide

theorem witness_ResetInputHoldsResetState :
    ({ waitingRandodd with inputs := [.rstN false] } : State).inputs = .rstN false :: [] := by decide

/-- A success and a fault in the cycle of a clear, and a soft reset in the cycle of an end. -/
theorem witness_SimultaneousEvents :
    (next { accepted 0x00021331#32 with inputs := [.sameCycle (memWrite 0x038 3#32) none] }).map
      (fun t => (t.engine, t.irqStat)) = some (.done, 1#2) ∧
    (next { waitingMrtest with inputs := [.sameCycle (memWrite 0x038 3#32) (some 4)] }).map
      (fun t => (t.engine, t.irqStat)) = some (.fault, 2#2) ∧
    (next { waitingRandodd with inputs := [.sameCycle (memWrite 0x008 0x80000000#32) (some 4)] }).map
      (fun t => (t.engine, t.irqStat)) = some (.idle, 0#2) := by decide +kernel

theorem witness_StepKeepsInv :
    (accepted 0x00021331#32).Inv ∧ (next (accepted 0x00021331#32)).isSome = true ∧ waitingRandodd.Inv ∧
      (next { waitingRandodd with inputs := [.answer 5] }).isSome = true :=
  ⟨inv_accepted, by decide +kernel, inv_waitingRandodd, by decide +kernel⟩

theorem witness_RunningCommandReadsItsRegisters :
    (accepted 0x00021331#32).Inv ∧ (accepted 0x00021331#32).engine = .accepted ∧
      decode (accepted 0x00021331#32).ctx.cw = .ok (.gcd 3#4 1#4 2#4) := ⟨inv_accepted, by decide, by decide⟩

theorem witness_CommandFrame :
    (run (.isgen 2#2 1#4 3#4) (group 5)).map State.engine = some .done ∧
      (run (.modmul 9#4 1#4 2#4 3#4) (regs 1 2 3)).map State.engine = some .done := by decide +kernel

theorem witness_FaultingEndIsPrecise :
    (run (.modmul 9#4 1#4 2#4 3#4) (regs 1 2 0)).map State.engine = some .fault ∧
      waitingMrtest.engine = .waiting (.mrtest 5 2) ∧ (takeAnswer 4 waitingMrtest).engine = .fault := by decide +kernel

theorem witness_LateConfigurationHasNoEffect :
    (run (.primegen 4#4 1#4) (searching 2#32 [])).map State.engine = some (.waiting (.primegenCandidate 4#4 3)) := by
  decide +kernel

/-- No answers are needed beyond one with `ROUNDS` and `LIMIT` 0; five are enough with 1 round and 2 attempts. -/
theorem witness_AnsweredCommandEnds :
    1 + State.reset.rounds.toNat + State.reset.limit.toNat * (State.reset.rounds.toNat + 1) ≤ [7].length ∧
    1 + (searching 2#32 []).rounds.toNat + (searching 2#32 []).limit.toNat * ((searching 2#32 []).rounds.toNat + 1)
      ≤ [0, 2, 2, 2, 0, 0].length ∧
    (searching 2#32 [0, 2, 2, 2, 0, 0]).inputs = answersThen [0, 2, 2, 2, 0, 0] [] := by decide

theorem witness_AttemptsNeverFall :
    waitingMrtest.Inv ∧ waitingMrtest.busy = true ∧
      (next { waitingMrtest with inputs := [.answer 2] }).map (fun t => (t.busy, t.attempts)) = some (true, 1#32) :=
  ⟨inv_waitingMrtest, by decide, by decide +kernel⟩

end Sys2Proof.Tests
end

namespace Sys2Proof.Machine

/-! ## Bounds on results: every one is a value of `W` bits (R7) -/

/-- `bitlen` is the least number of bits that holds the value (R8). -/
theorem bitlen_le_iff (v k : Nat) : bitlen v ≤ k ↔ v < 2 ^ k := by
  unfold bitlen
  split_ifs with h
  · simp [h]
  · exact Nat.log2_lt h

theorem bitlen_eq_zero_iff (v : Nat) : bitlen v = 0 ↔ v = 0 := by
  rw [← Nat.le_zero, bitlen_le_iff, Nat.pow_zero, Nat.lt_one_iff]

/-- The lookup answers for 0 to 3 (R168), so a candidate it leaves to the rounds is not 0. -/
theorem bitlen_pos_of_primeLookup_none {c : Nat} (h : primeLookup c = none) : 1 ≤ bitlen c := by
  by_contra hlen
  obtain rfl : c = 0 := (bitlen_eq_zero_iff c).1 (by omega)
  exact absurd h (by decide)

/-- `RandOdd(L)` has exactly `L` bits: the top bit is forced (R186). -/
theorem bitlen_randOdd {len : Nat} (h : 1 ≤ len) (v : Nat) : bitlen (randOdd len v) = len := by
  have hlt : randOdd len v < 2 ^ len :=
    Nat.or_lt_two_pow
      (Nat.or_lt_two_pow (Nat.mod_lt _ (Nat.two_pow_pos len)) (Nat.pow_lt_pow_right (by omega) (by omega)))
      (Nat.one_lt_two_pow (by omega))
  have hge : 2 ^ (len - 1) ≤ randOdd len v := Nat.right_le_or.trans Nat.left_le_or
  have hup : bitlen (randOdd len v) ≤ len := (bitlen_le_iff _ _).2 hlt
  have hlow : ¬ bitlen (randOdd len v) ≤ len - 1 := fun hle =>
    absurd ((bitlen_le_iff _ _).1 hle) (Nat.not_lt.2 hge)
  omega

theorem powModLoop_lt {b n e : Nat} (hn : 0 < n) (i : Nat) {acc : Nat} (hacc : acc < n) :
    powModLoop b n e i acc < n := by
  induction i generalizing acc with
  | zero => exact hacc
  | succ i ih =>
    apply ih
    split_ifs
    · exact Nat.mod_lt _ hn
    · exact Nat.mod_lt _ hn

theorem powMod_lt {n : Nat} (hn : 0 < n) (base e : Nat) : powMod base e n < n :=
  powModLoop_lt hn _ (Nat.mod_lt _ hn)

theorem invMod_lt {m : Nat} (hm : 0 < m) (a : Nat) : invMod a m < m := by
  have hlt := Int.emod_lt_of_pos (euclid a m).2 (Int.natCast_pos.2 hm)
  unfold invMod
  omega

/-- A greatest common divisor stays below a bound of both operands, also when one or both are 0 (R156, R157). -/
theorem gcd_lt_of_lt {a b r : Nat} (ha : a < r) (hb : b < r) : Nat.gcd a b < r := by
  rcases Nat.eq_zero_or_pos a with rfl | hpos
  · simpa using hb
  · exact (Nat.gcd_le_left b hpos).trans_lt ha

/-- A write of one bus word inside a register leaves a value of the register's width (R62, R69). -/
theorem withWord_lt {v j ww : Nat} (hv : v < 2 ^ (32 * ww)) (hj : j < ww) (d : Word) :
    withWord v j d < 2 ^ (32 * ww) := by
  have hword : 2 ^ 32 * 2 ^ (32 * j) = 2 ^ (32 * (j + 1)) := by
    rw [← Nat.pow_add, Nat.add_comm, Nat.mul_succ]
  have hsplit : 2 ^ (32 * (ww - (j + 1))) * 2 ^ (32 * (j + 1)) = 2 ^ (32 * ww) := by
    rw [← Nat.pow_add, ← Nat.mul_add, Nat.sub_add_cancel hj]
  have hhigh : v / 2 ^ (32 * (j + 1)) < 2 ^ (32 * (ww - (j + 1))) :=
    Nat.div_lt_of_lt_mul (by rwa [Nat.mul_comm, hsplit])
  have hlow : d.toNat * 2 ^ (32 * j) + v % 2 ^ (32 * j) < 2 ^ (32 * (j + 1)) := by
    rw [← hword, Nat.mul_comm d.toNat]
    exact Nat.mul_add_lt_mul_of_lt_of_lt d.isLt (Nat.mod_lt _ (Nat.two_pow_pos _))
  rw [withWord, ← hsplit, Nat.add_assoc, Nat.mul_comm (v / _)]
  exact Nat.mul_add_lt_mul_of_lt_of_lt hhigh hlow

/-! ## The invariant through the shared operations

What a running command may rely on, and that each of its ends, each draw it places, acceptance and reset lead to a
state with the invariant. -/

/-- What the invariant gives a running command (R26, R27, R36, R37, R46, R280); it says nothing of the engine's place in
the command nor of `ATTEMPTS`, so it holds throughout a move. -/
structure State.Running (s : State) : Prop where
  operandsFit : s.OperandsFit
  latched : s.Latched
  bool : s.boolFlag = false
  err : s.err = 0#8
  errInfo : s.errInfo = 0#32
  rstLow : s.rstLow = false

theorem State.Inv.rstLow_of_busy {s : State} (h : s.Inv) (hb : s.busy = true) : s.rstLow = false := by
  by_contra hr
  have hidle : s.engine = .idle := congrArg State.engine (h.resetHeld (by simpa using hr))
  simp [State.busy, hidle, Engine.busy] at hb

theorem State.Inv.running {s : State} (h : s.Inv) (hb : s.busy = true) : s.Running := by
  have hdone : s.engine ≠ .done := fun e => by simp [State.busy, e, Engine.busy] at hb
  have hfault : s.engine ≠ .fault := fun e => by simp [State.busy, e, Engine.busy] at hb
  have herr : s.err = 0#8 := by
    by_contra e
    exact hfault (h.flagsAgree.err.1 e)
  exact
    { operandsFit := h.operandsFit
      latched := h.latched hb
      bool := by
        by_contra e
        exact hdone (h.flagsAgree.bool (by simpa using e))
      err := herr
      errInfo := h.flagsAgree.info herr
      rstLow := h.rstLow_of_busy hb }

theorem State.Running.countAttempt {s : State} (h : s.Running) : (countAttempt s).Running :=
  { h with operandsFit := { h.operandsFit with }, latched := { h.latched with } }

/-- With no command running and reset released, only the values and the flags are left to check. -/
theorem inv_of_not_busy {s : State} (hfit : s.OperandsFit) (hflags : s.FlagsAgree) (hb : s.busy = false)
    (hr : s.rstLow = false) : s.Inv where
  operandsFit := hfit
  flagsAgree := hflags
  latched := by simp [hb]
  started := fun e => by simp [State.busy, e, Engine.busy] at hb
  drawSound := fun w e => by simp [State.busy, e, Engine.busy] at hb
  resetHeld := by simp [hr]

/-- The code of every fault is a code (R241). -/
theorem code_ne_zero (flt : CommandFault) : flt.code ≠ 0#8 := by
  cases flt <;> simp [CommandFault.code]

section
variable {s : State}

/-- A successful end with a result of `W` bits (R246). -/
theorem inv_finishValue (h : s.Running) (rd : Reg) {v : Nat} (hv : v < s.par.radix) : (finishValue rd v s).Inv := by
  refine inv_of_not_busy ?_ ⟨by simp [h.bool], by simp [h.err], by simp [h.errInfo]⟩ rfl h.rstLow
  refine { h.operandsFit with x := fun i => (getElem_setReg s.x rd (.ofFin i) v).trans_lt ?_ }
  split_ifs
  · exact hv
  · exact h.operandsFit.x i

/-- A successful end with a Boolean (R246). -/
theorem inv_finishBool (h : s.Running) (b : Bool) : (finishBool b s).Inv :=
  inv_of_not_busy { h.operandsFit with } ⟨by simp, by simp [h.err], by simp [h.errInfo]⟩ rfl h.rstLow

/-- A faulting end (R247). -/
theorem inv_raise (h : s.Running) (flt : CommandFault) : (raise flt s).Inv :=
  inv_of_not_busy { h.operandsFit with }
    ⟨by simp [h.bool], by simp [code_ne_zero], fun e => absurd e (code_ne_zero flt)⟩ rfl h.rstLow

theorem inv_raiseParam (h : s.Running) (cause : ParamCause) : (raiseParam cause s).Inv :=
  inv_raise h (.invalidParameter cause)

/-- A draw its command's rule makes (R80). -/
theorem inv_placeDraw (h : s.Running) {w : Wait} (hw : w.Sound s) : (placeDraw w s).Inv where
  operandsFit := { h.operandsFit with }
  flagsAgree := ⟨by simp [h.bool], by simp [h.err], by simp [h.errInfo]⟩
  latched := fun _ => { h.latched with }
  started := by simp
  drawSound := by
    intro w' e
    obtain rfl : w = w' := by simpa using e
    cases w <;> exact hw
  resetHeld := by simp [h.rstLow]

/-- Acceptance of any word (R46). -/
theorem inv_accept (hfit : s.OperandsFit) (hr : s.rstLow = false) (cw : Word) : (accept cw s).Inv where
  operandsFit :=
    { hfit with
      src1 := hfit.x (fieldRs1 cw).toFin
      src2 := hfit.x (fieldRs2 cw).toFin
      src3 := hfit.x (fieldRs3 cw).toFin }
  flagsAgree := ⟨by simp, by simp, by simp⟩
  latched := fun _ => ⟨rfl, rfl, rfl, rfl⟩
  started := fun _ => rfl
  drawSound := by simp
  resetHeld := by simp [hr]

/-- The reset state holds 0 in every operand register and every latched source (R50). -/
theorem operandsFit_resetAll (s : State) : (resetAll s).OperandsFit := by
  have hpos : 0 < s.par.radix := Nat.two_pow_pos _
  exact
    { x := fun i => by simpa using hpos
      p := fun k => by simpa using hpos
      f := fun k => by simpa using hpos
      src1 := hpos
      src2 := hpos
      src3 := hpos }

theorem flagsAgree_resetAll (s : State) : (resetAll s).FlagsAgree := ⟨by simp, by simp, by simp⟩

theorem inv_resetAll (s : State) : (resetAll s).Inv :=
  inv_of_not_busy (operandsFit_resetAll s) (flagsAgree_resetAll s) rfl rfl

/-- The reset state while `rst_n` is held low (R280). -/
theorem inv_resetHeld (s : State) : ({ resetAll s with rstLow := true } : State).Inv where
  operandsFit := { operandsFit_resetAll s with }
  flagsAgree := { flagsAgree_resetAll s with }
  latched := fun hb => by simp [State.busy, Engine.busy] at hb
  started := by simp
  drawSound := by simp
  resetHeld := fun _ => rfl

/-- The invariant does not speak of the inputs to come nor of the bus port's own fields. -/
theorem State.Inv.with_port (h : s.Inv) (inputs : List Input) (resp : Option BusResponse) (erroredReads : Nat) :
    ({ s with inputs := inputs, resp := resp, erroredReads := erroredReads } : State).Inv where
  operandsFit := { h.operandsFit with }
  flagsAgree := { h.flagsAgree with }
  latched := fun hb => { h.latched hb with }
  started := h.started
  drawSound := fun w e => by
    have hw := h.drawSound w e
    cases w <;> exact hw
  resetHeld := fun hr =>
    congrArg (fun u : State => { u with inputs := inputs, resp := resp, erroredReads := erroredReads })
      (h.resetHeld hr)

theorem State.Inv.with_inputs (h : s.Inv) (inputs : List Input) : ({ s with inputs := inputs } : State).Inv :=
  h.with_port inputs s.resp s.erroredReads

/-- With reset released the invariant does not speak of the configuration and interrupt registers: a running command
reads its latched copies (R47). -/
theorem State.Inv.with_csrs (h : s.Inv) (hr : s.rstLow = false) (sieveEn : Bool) (rounds limit bits : Word)
    (predctl fcnt : BitVec 4) (irqEn irqStat : BitVec 2) :
    ({ s with
        sieveEn := sieveEn, rounds := rounds, limit := limit, bits := bits, predctl := predctl, fcnt := fcnt
        irqEn := irqEn, irqStat := irqStat } : State).Inv where
  operandsFit := { h.operandsFit with }
  flagsAgree := { h.flagsAgree with }
  latched := fun hb => { h.latched hb with }
  started := h.started
  drawSound := fun w e => by
    have hw := h.drawSound w e
    cases w <;> exact hw
  resetHeld := fun hl => by simp [hr] at hl

/-- With reset released and no command running, the operand files may hold any values of `W` bits. -/
theorem State.Inv.with_files (h : s.Inv) (hr : s.rstLow = false) (hb : ¬ s.busy = true) {x : Vector Nat 16}
    {p : Vector Nat 4} {f : Vector Nat 8} (hx : ∀ i : Fin 16, x[i] < s.par.radix)
    (hp : ∀ k : Fin 4, p[k] < s.par.radix) (hf : ∀ k : Fin 8, f[k] < s.par.radix) :
    ({ s with x := x, p := p, f := f } : State).Inv :=
  inv_of_not_busy { h.operandsFit with x := hx, p := hp, f := hf } { h.flagsAgree with }
    (Bool.eq_false_of_not_eq_true hb) hr

end

/-! ## The invariant through a host access

Every host access keeps the invariant: the operand windows and `CMD` are locked while BUSY (R72, R73), and a
mapped word lies inside its register (R62 to R64). -/

/-- The word an operand target names lies inside a register of `ww` words. -/
def Target.InRegister (ww : Nat) : Target → Prop
  | .csr _ => True
  | .x _ j => j < ww
  | .p _ j => j < ww
  | .f _ j => j < ww

/-- The tail of a slot is not mapped (R70). -/
theorem targetOf_inRegister {ww off : Nat} {tgt : Target} (h : targetOf ww off = some tgt) : tgt.InRegister ww := by
  unfold targetOf at h
  split_ifs at h with hcsr htail hx hp hf
  · obtain ⟨c, -, rfl⟩ := Option.map_eq_some_iff.1 h
    trivial
  · cases h; exact Nat.not_le.1 htail
  · cases h; exact Nat.not_le.1 htail
  · cases h; exact Nat.not_le.1 htail

theorem Access.target_inRegister {a : Access} {ww : Nat} {tgt : Target} (h : a.target ww = some tgt) :
    tgt.InRegister ww := by
  unfold Access.target at h
  split_ifs at h
  exact targetOf_inRegister h

section
variable {s t : State}

theorem inv_writeCtrl (h : s.Inv) (hr : s.rstLow = false) (d : Word) : (writeCtrl d s).Inv := by
  unfold writeCtrl
  split_ifs
  · exact inv_resetAll s
  · exact h.with_csrs hr ..

/-- A write to a CSR: a read-only one refuses it, `CMD` accepts only when not BUSY, the others hold configuration,
interrupt bits or the soft reset. -/
theorem csrWrite_keeps_inv {d : Word} (h : s.Inv) (hr : s.rstLow = false) {c : Csr} (ht : csrWrite c d s = some t) :
    t.Inv := by
  cases c with
  | id | param | status | err | errInfo | attempts => cases ht
  | ctrl => cases ht; exact inv_writeCtrl h hr d
  | cmd =>
    obtain ⟨-, ⟨⟩⟩ := Option.ite_none_left_eq_some.1 ht
    exact inv_accept h.operandsFit hr d
  | rounds | limit | bits | predctl | fcnt | irqEn | irqStat => cases ht; exact h.with_csrs hr ..

/-- A write to a register of a file of values of `W` bits leaves such a file. -/
theorem getElem_set_withWord_lt {n : Nat} {par : Params} {file : Vector Nat n}
    (hfile : ∀ i : Fin n, file[i] < par.radix) (k : Fin n) {j : Nat} (hj : j < par.ww) (d : Word) (i : Fin n) :
    (file.set k (withWord file[k] j d))[i] < par.radix := by
  rw [Fin.getElem_fin, Vector.getElem_set]
  split_ifs
  · exact withWord_lt (hfile k) hj d
  · exact hfile i

theorem targetWrite_keeps_inv {d : Word} (h : s.Inv) (hr : s.rstLow = false) {tgt : Target}
    (hin : tgt.InRegister s.par.ww) (ht : targetWrite tgt d s = some t) : t.Inv := by
  cases tgt with
  | csr c => exact csrWrite_keeps_inv h hr ht
  | x i j =>
    obtain ⟨hb, ⟨⟩⟩ := Option.ite_none_left_eq_some.1 ht
    exact h.with_files hr hb (getElem_set_withWord_lt h.operandsFit.x i hin d) h.operandsFit.p h.operandsFit.f
  | p k j =>
    obtain ⟨hb, ⟨⟩⟩ := Option.ite_none_left_eq_some.1 ht
    exact h.with_files hr hb h.operandsFit.x (getElem_set_withWord_lt h.operandsFit.p k hin d) h.operandsFit.f
  | f k j =>
    obtain ⟨hb, ⟨⟩⟩ := Option.ite_none_left_eq_some.1 ht
    exact h.with_files hr hb h.operandsFit.x h.operandsFit.p (getElem_set_withWord_lt h.operandsFit.f k hin d)

end

section
variable {s t : State} {a : Access}

theorem busRead_keeps_inv (h : s.Inv) (a : Access) : (busRead a s).Inv := by
  obtain ⟨d, hd⟩ | he := busRead_cases a s
  · rw [hd]; exact h.with_port ..
  · rw [he]; exact h.with_port ..

theorem busWrite_keeps_inv (h : s.Inv) (hr : s.rstLow = false) (a : Access) (d : Word) : (busWrite a d s).Inv := by
  obtain ⟨tgt, t, htgt, ht, hw⟩ | he := busWrite_cases a d s
  · rw [hw]
    exact (targetWrite_keeps_inv h hr (Access.target_inRegister htgt) ht).with_port ..
  · rw [he]; exact h.with_port ..

theorem busAccess_keeps_inv (h : s.Inv) (ht : busAccess a s = .next t) : t.Inv := by
  obtain ⟨-, hrefused⟩ | ⟨-, -, hread⟩ | ⟨hr, d, -, hwrite⟩ := busAccess_cases a s
  · simp [hrefused] at ht
  · obtain rfl : busRead a s = t := by simpa [hread] using ht
    exact busRead_keeps_inv h a
  · obtain rfl : busWrite a d s = t := by simpa [hwrite] using ht
    exact busWrite_keeps_inv h hr a d

end

/-! ## The invariant through an answer to a draw

Every answer to a draw keeps the invariant: a command goes on to a draw its rule makes, within its budget, or
ends with a result of `W` bits (R79, R166, R186, R201, R224). -/

/-- What holds of a PRIMEGEN run from its checks to its end (R201). -/
structure State.RunsPrimegen (rd : Reg) (len : Nat) (s : State) : Prop where
  decoded : ∃ rs1, decode s.cmd = .ok (.primegen rd rs1)
  len_eq : len = bitlen s.src1
  len_pos : 1 ≤ len
  rounds : s.ctx.rounds ≠ 0#32

/-- What holds of a GENFIND run from its checks to its end (R224). -/
structure State.RunsGenfind (mode : Mode) (rd : Reg) (p : Nat) (s : State) : Prop where
  decoded : ∃ rs3, decode s.cmd = .ok (.genfind mode rd rs3)
  p_eq : p = s.src3
  accepted : checkGroup mode p s = none

theorem toNat_pos_of_ne_zero {n : Word} (h : n ≠ 0#32) : 1 ≤ n.toNat :=
  Nat.pos_of_ne_zero fun e => h (BitVec.eq_of_toNat_eq e)

/-- A counter below a word does not wrap when it counts one more (R41). -/
theorem toNat_add_one_of_lt {n : Word} {k : Nat} (h : n.toNat < k) (hk : k < 2 ^ 32) :
    (n + 1#32).toNat = n.toNat + 1 := by
  rw [BitVec.toNat_add, BitVec.toNat_ofNat]
  omega

/-- An attempt below the limit is counted within the budget (R201, R224). -/
theorem attemptsInBudget_countAttempt {s : State} (h : s.attempts.toNat < s.ctx.limit.toNat) :
    (countAttempt s).attemptsInBudget := by
  have hcount := toNat_add_one_of_lt h s.ctx.limit.isLt
  exact ⟨by rw [countAttempt_attempts]; omega, by rw [countAttempt_attempts, countAttempt_ctx]; omega⟩

section
variable {s : State}

/-- An answer to a range draw: inside the bounds its use decides, outside it is `EntropyRange` (R79). -/
theorem inv_rangeAnswer (h : s.Running) {lo hi v : Nat} {use : State} (huse : v ≤ hi → use.Inv) :
    (rangeAnswer lo hi v s use).Inv := by
  unfold rangeAnswer
  split_ifs with hv
  · exact huse hv.2
  · exact inv_raise h _

theorem inv_randoddAnswer (h : s.Running) (rd : Reg) {len : Nat} (hpos : 1 ≤ len) (hle : len ≤ s.width) (v : Nat) :
    (randoddAnswer rd len v s).Inv :=
  inv_finishValue h rd ((bitlen_le_iff _ _).1 ((bitlen_randOdd hpos v).trans_le hle))

theorem inv_mrtestRound (h : s.Running) {n left : Nat} (hw : (Wait.mrtest n left).Sound s) (a : Nat) :
    (mrtestRound n left a s).Inv := by
  obtain ⟨hdec, hn, hlookup, hpos, hsum⟩ := hw
  have hcount := toNat_add_one_of_lt (show s.attempts.toNat < s.ctx.rounds.toNat by omega) s.ctx.rounds.isLt
  unfold mrtestRound
  split_ifs with hpass hlast
  · exact inv_finishBool h.countAttempt true
  · exact inv_placeDraw h.countAttempt
      ⟨hdec, hn, hlookup, by omega, by rw [countAttempt_attempts, countAttempt_ctx]; omega⟩
  · exact inv_finishBool h.countAttempt false

theorem inv_primegenAttempt (h : s.Running) {rd : Reg} {len : Nat} (hp : s.RunsPrimegen rd len) :
    (primegenAttempt rd len s).Inv := by
  unfold primegenAttempt
  split_ifs with hlimit
  · exact inv_placeDraw h.countAttempt
      ⟨hp.decoded, hp.len_eq, hp.len_pos, hp.rounds, attemptsInBudget_countAttempt hlimit⟩
  · exact inv_raise h _

/-- A candidate has the length of the start, which is a value of `W` bits. -/
theorem State.RunsPrimegen.candidate_lt {rd : Reg} {len c : Nat} (hp : s.RunsPrimegen rd len) (h : s.Running)
    (hc : bitlen c = len) : c < s.par.radix :=
  (bitlen_le_iff _ _).1 ((hc.trans hp.len_eq).trans_le ((bitlen_le_iff _ _).2 h.operandsFit.src1))

theorem inv_primegenJudge (h : s.Running) {rd : Reg} {len c : Nat} (hp : s.RunsPrimegen rd len) (hc : bitlen c = len) :
    (primegenJudge rd len c s).Inv := by
  unfold primegenJudge
  split_ifs
  · exact inv_finishValue h rd (hp.candidate_lt h hc)
  · exact inv_primegenAttempt h hp

theorem inv_primegenTest (h : s.Running) {rd : Reg} {len c : Nat} (hp : s.RunsPrimegen rd len) (hc : bitlen c = len)
    (hsieve : s.ctx.sieveEn = true → trialDivPass s.par.sieve c = true) (hbudget : s.attemptsInBudget) :
    (primegenTest rd len c s).Inv := by
  have hrounds : 1 ≤ s.ctx.rounds.toNat := toNat_pos_of_ne_zero hp.rounds
  unfold primegenTest
  split
  · exact inv_primegenJudge h hp hc
  · exact inv_primegenAttempt h hp
  next hlookup =>
    exact inv_placeDraw h ⟨hp.decoded, hp.len_eq, hc, hlookup, hsieve, hrounds, le_rfl, hbudget⟩

theorem inv_primegenCandidate (h : s.Running) {rd : Reg} {len : Nat} (hp : s.RunsPrimegen rd len)
    (hbudget : s.attemptsInBudget) (v : Nat) : (primegenCandidate rd len v s).Inv := by
  unfold primegenCandidate primegenFilter
  split_ifs with hfilter
  · exact inv_primegenAttempt h hp
  · refine inv_primegenTest h hp (bitlen_randOdd hp.len_pos v) (fun hsieve => ?_) hbudget
    simpa [hsieve] using hfilter

theorem inv_primegenRound (h : s.Running) {rd : Reg} {len c left : Nat} (hp : s.RunsPrimegen rd len)
    (hw : (Wait.primegenBase rd len c left).Sound s) (a : Nat) : (primegenRound rd len c left a s).Inv := by
  obtain ⟨hdec, hlen, hc, hlookup, hsieve, hpos, hle, hbudget⟩ := hw
  unfold primegenRound
  split_ifs with hpass hlast
  · exact inv_primegenJudge h hp hc
  · exact inv_placeDraw h ⟨hdec, hlen, hc, hlookup, hsieve, by omega, by omega, hbudget⟩
  · exact inv_primegenAttempt h hp

theorem runsPrimegen_of_base_sound {rd : Reg} {len c left : Nat} (hw : (Wait.primegenBase rd len c left).Sound s) :
    s.RunsPrimegen rd len := by
  obtain ⟨hdec, hlen, hc, hlookup, -, hpos, hle, -⟩ := hw
  have hrounds : s.ctx.rounds ≠ 0#32 := by
    intro e
    rw [e, BitVec.toNat_ofNat] at hle
    omega
  exact ⟨hdec, hlen, hc ▸ bitlen_pos_of_primeLookup_none hlookup, hrounds⟩

theorem inv_genfindAttempt (h : s.Running) {mode : Mode} {rd : Reg} {p : Nat} (hg : s.RunsGenfind mode rd p) :
    (genfindAttempt mode rd p s).Inv := by
  unfold genfindAttempt
  split_ifs with hlimit
  · exact inv_placeDraw h.countAttempt
      ⟨hg.decoded, hg.p_eq, hg.accepted, attemptsInBudget_countAttempt hlimit⟩
  · exact inv_raise h _

/-- A generator is at most `p - 1`, and `p` is a latched source. -/
theorem inv_genfindTry (h : s.Running) {mode : Mode} {rd : Reg} {p g : Nat} (hg : s.RunsGenfind mode rd p)
    (hle : g ≤ p - 1) : (genfindTry mode rd p g s).Inv := by
  have hp : p < s.par.radix := hg.p_eq ▸ h.operandsFit.src3
  unfold genfindTry
  split_ifs
  · exact inv_finishValue h rd (by omega)
  · exact inv_genfindAttempt h hg

/-- The engine takes any word for a draw its command's rule makes (R80). -/
theorem inv_resume (h : s.Running) {w : Wait} (hw : w.Sound s) (v : Nat) : (resume w v s).Inv := by
  cases w with
  | randodd rd len =>
    obtain ⟨-, -, hpos, hle, -⟩ := hw
    exact inv_randoddAnswer h rd hpos hle v
  | mrtest n left => exact inv_rangeAnswer h fun _ => inv_mrtestRound h hw v
  | primegenCandidate rd len =>
    obtain ⟨hdec, hlen, hpos, hrounds, hbudget⟩ := hw
    exact inv_primegenCandidate h ⟨hdec, hlen, hpos, hrounds⟩ hbudget v
  | primegenBase rd len c left =>
    exact inv_rangeAnswer h fun _ => inv_primegenRound h (runsPrimegen_of_base_sound hw) hw v
  | genfind mode rd p =>
    obtain ⟨hdec, hp, hok, -⟩ := hw
    exact inv_rangeAnswer h fun hle => inv_genfindTry h ⟨hdec, hp, hok⟩ hle

end

theorem resume_keeps_inv {s : State} {w : Wait} (h : s.Inv) (hw : s.engine = .waiting w) (v : Nat) :
    (resume w v s).Inv :=
  inv_resume (h.running ((busy_iff s).2 (.inr ⟨w, hw⟩))) (h.drawSound w hw) v

theorem serve_keeps_inv {s : State} (h : s.Inv) (l : List Input) : (serve s l).Inv :=
  serve_induction (fun _ _ _ hs hw => resume_keeps_inv hs hw _) (fun _ l hs => hs.with_inputs l) s l h

theorem takeAnswer_keeps_inv {s : State} (h : s.Inv) (v : Nat) : (takeAnswer v s).Inv := by
  by_cases hw : ∃ w, s.engine = .waiting w
  · obtain ⟨w, hw⟩ := hw
    rw [takeAnswer_of_waiting hw]
    exact serve_keeps_inv (resume_keeps_inv h hw _) _
  · rwa [takeAnswer_of_not_waiting fun w e => hw ⟨w, e⟩]

/-! ## The invariant through the twelve commands, each run from the acceptance of its word -/

/-- A modulus that passes the checks of MONTMUL and MONTR2 is not 0 (R127). -/
theorem pos_of_montCheck_none {n : Nat} (hn : montCheck n = none) : 0 < n := by
  refine Nat.pos_of_ne_zero fun e => ?_
  simp [montCheck, e] at hn

section
variable {s t : State} (h : s.Running)
include h

/-- A result below the modulus is a value of `W` bits, for the modulus is a latched source (R7, R46). -/
theorem inv_finishValue_of_lt_src3 (rd : Reg) {v : Nat} (hv : v < s.src3) : (finishValue rd v s).Inv :=
  inv_finishValue h rd (hv.trans h.operandsFit.src3)

theorem inv_of_exec_modmul {rd rs1 rs2 rs3 : Reg} (ht : exec (.modmul rd rs1 rs2 rs3) s = .next t) : t.Inv := by
  cases ht
  split_ifs with hzero
  · exact inv_raiseParam h _
  · exact inv_finishValue_of_lt_src3 h rd (Nat.mod_lt _ (Nat.pos_of_ne_zero hzero))

theorem inv_of_exec_montmul {rd rs1 rs2 rs3 : Reg} (ht : exec (.montmul rd rs1 rs2 rs3) s = .next t) : t.Inv := by
  cases ht
  split
  · exact inv_raiseParam h _
  next hcheck => exact inv_finishValue_of_lt_src3 h rd (Nat.mod_lt _ (pos_of_montCheck_none hcheck))

theorem inv_of_exec_montr2 {rd rs3 : Reg} (ht : exec (.montr2 rd rs3) s = .next t) : t.Inv := by
  cases ht
  split
  · exact inv_raiseParam h _
  next hcheck => exact inv_finishValue_of_lt_src3 h rd (Nat.mod_lt _ (pos_of_montCheck_none hcheck))

theorem inv_of_exec_modexp {rd rs1 rs2 rs3 : Reg} (ht : exec (.modexp rd rs1 rs2 rs3) s = .next t) : t.Inv := by
  cases ht
  split_ifs with hzero
  · exact inv_raiseParam h _
  · exact inv_finishValue_of_lt_src3 h rd (powMod_lt (Nat.pos_of_ne_zero hzero) _ _)

theorem inv_of_exec_modinv {rd rs1 rs3 : Reg} (ht : exec (.modinv rd rs1 rs3) s = .next t) : t.Inv := by
  cases ht
  split_ifs with hzero hgcd
  · exact inv_raiseParam h _
  · exact inv_raise h _
  · exact inv_finishValue_of_lt_src3 h rd (invMod_lt (Nat.pos_of_ne_zero hzero) _)

theorem inv_of_exec_gcd {rd rs1 rs2 : Reg} (ht : exec (.gcd rd rs1 rs2) s = .next t) : t.Inv := by
  cases ht
  exact inv_finishValue h rd (gcd_lt_of_lt h.operandsFit.src1 h.operandsFit.src2)

/-- MRTEST: no round is counted yet, so all of `ROUNDS` are left at its first draw (R166). -/
theorem inv_of_exec_mrtest {rs1 : Reg} (hdec : decode s.cmd = .ok (.mrtest rs1)) (hzero : s.attempts = 0#32)
    (ht : exec (.mrtest rs1) s = .next t) : t.Inv := by
  cases ht
  apply serve_keeps_inv
  unfold mrtestStart
  split_ifs with hrounds
  · exact inv_raiseParam h _
  · have hpos : 1 ≤ s.ctx.rounds.toNat := toNat_pos_of_ne_zero hrounds
    split
    · exact inv_finishBool h _
    next hlookup => exact inv_placeDraw h ⟨⟨rs1, hdec⟩, rfl, hlookup, hpos, by simp [hzero]⟩

theorem inv_of_exec_randodd {rd : Reg} (hdec : decode s.cmd = .ok (.randodd rd)) (hzero : s.attempts = 0#32)
    (ht : exec (.randodd rd) s = .next t) : t.Inv := by
  cases ht
  apply serve_keeps_inv
  unfold randoddStart
  split_ifs with hbits
  · exact inv_raiseParam h _
  · exact inv_placeDraw h ⟨hdec, rfl, by omega, by omega, hzero⟩

theorem inv_of_exec_trialdiv {rs1 : Reg} (ht : exec (.trialdiv rs1) s = .next t) : t.Inv := by
  cases ht
  exact inv_finishBool h _

theorem inv_of_exec_primegen {rd rs1 : Reg} (hdec : decode s.cmd = .ok (.primegen rd rs1))
    (ht : exec (.primegen rd rs1) s = .next t) : t.Inv := by
  cases ht
  apply serve_keeps_inv
  unfold primegenStart
  split_ifs with hlen hrounds
  · exact inv_raiseParam h _
  · exact inv_raiseParam h _
  · exact inv_primegenAttempt h ⟨⟨rs1, hdec⟩, rfl, Nat.pos_of_ne_zero hlen, hrounds⟩

theorem inv_of_exec_isgen {mode : Mode} {rs1 rs3 : Reg} (ht : exec (.isgen mode rs1 rs3) s = .next t) : t.Inv := by
  cases ht
  unfold isgenRun
  split_ifs
  · exact inv_raise h _
  · split
    · exact inv_raiseParam h _
    · exact inv_finishBool h _

theorem inv_of_exec_genfind {mode : Mode} {rd rs3 : Reg} (hdec : decode s.cmd = .ok (.genfind mode rd rs3))
    (ht : exec (.genfind mode rd rs3) s = .next t) : t.Inv := by
  cases ht
  split_ifs
  · exact inv_raise h _
  · apply serve_keeps_inv
    unfold genfindStart
    split
    · exact inv_raiseParam h _
    next hgroup => exact inv_genfindAttempt h ⟨⟨rs3, hdec⟩, rfl, hgroup⟩

/-- The command of the word in `CMD`, run with `ATTEMPTS` as acceptance left it. -/
theorem inv_of_exec {i : Instr} (hdec : decode s.cmd = .ok i) (hzero : s.attempts = 0#32)
    (ht : exec i s = .next t) : t.Inv := by
  cases i with
  | modmul rd rs1 rs2 rs3 => exact inv_of_exec_modmul h ht
  | montmul rd rs1 rs2 rs3 => exact inv_of_exec_montmul h ht
  | montr2 rd rs3 => exact inv_of_exec_montr2 h ht
  | modexp rd rs1 rs2 rs3 => exact inv_of_exec_modexp h ht
  | modinv rd rs1 rs3 => exact inv_of_exec_modinv h ht
  | gcd rd rs1 rs2 => exact inv_of_exec_gcd h ht
  | mrtest rs1 => exact inv_of_exec_mrtest h hdec hzero ht
  | randodd rd => exact inv_of_exec_randodd h hdec hzero ht
  | trialdiv rs1 => exact inv_of_exec_trialdiv h ht
  | primegen rd rs1 => exact inv_of_exec_primegen h hdec ht
  | isgen mode rs1 rs3 => exact inv_of_exec_isgen h ht
  | genfind mode rd rs3 => exact inv_of_exec_genfind h hdec ht

end

/-! ## The invariant through an input and a step -/

section
variable {s t : State}

/-- An accepted command begins: `CMD` holds its word (R46), so what runs is what `CMD` decodes to. -/
theorem runCommand_keeps_inv (h : s.Inv) (hacc : s.engine = .accepted) (ht : runCommand s = .next t) : t.Inv := by
  have hrun : s.Running := h.running ((busy_iff s).2 (.inl hacc))
  unfold runCommand at ht
  rw [hrun.latched.cw] at ht
  split at ht
  next i hdec => exact inv_of_exec hrun hdec (h.started hacc) ht
  next why _ =>
    cases ht
    exact inv_raise hrun _

theorem tick_of_accepted (hacc : s.engine = .accepted) : tick s = runCommand s := by
  simp [tick, hacc]

/-- The engine moves only when a command is accepted and not begun (R48, R49, R267). -/
theorem tick_of_not_accepted (hacc : s.engine ≠ .accepted) : tick s = .next s := by
  cases he : s.engine with
  | accepted => exact absurd he hacc
  | idle | waiting w | done | fault => simp [tick, he]

theorem tick_keeps_inv (h : s.Inv) (ht : tick s = .next t) : t.Inv := by
  by_cases hacc : s.engine = .accepted
  · exact runCommand_keeps_inv h hacc (tick_of_accepted hacc ▸ ht)
  · obtain rfl : s = t := by simpa [tick_of_not_accepted hacc] using ht
    exact h

theorem driveResetPin_keeps_inv (h : s.Inv) (level : Bool) : (driveResetPin level s).Inv := by
  obtain hsame | hreset := driveResetPin_cases level s
  · rwa [hsame]
  · rw [hreset]
    cases level
    · exact inv_resetHeld s
    · exact inv_resetAll s

/-- An access in the cycle of an end is performed before it (R45, R253). -/
theorem accessWithStep_keeps_inv (h : s.Inv) {a : Access} {ans : Option Nat} (ht : accessWithStep a ans s = .next t) :
    t.Inv := by
  unfold accessWithStep at ht
  split at ht
  next u hu =>
    have hmid : u.Inv := busAccess_keeps_inv h hu
    cases ans with
    | none => exact tick_keeps_inv hmid ht
    | some v => cases ht; exact takeAnswer_keeps_inv hmid v
  · cases ht
  · cases ht

theorem handle_keeps_inv (h : s.Inv) {inp : Input} (ht : handle inp s = .next t) : t.Inv := by
  cases inp with
  | tick => exact tick_keeps_inv h ht
  | access a => exact busAccess_keeps_inv h ht
  | answer v => cases ht; exact takeAnswer_keeps_inv h v
  | lateAnswer v => cases ht; exact h
  | sameCycle a ans => exact accessWithStep_keeps_inv h ht
  | rstN level => cases ht; exact driveResetPin_keeps_inv h level

end

end Sys2Proof.Machine

namespace Sys2Proof.Proofs

open Sys2Proof.Machine

/-- Settles O52: the input a step takes is handled in a state with the invariant, and with no input the engine moves. -/
theorem stepKeepsInv : Obligations.StepKeepsInv := by
  unfold Obligations.StepKeepsInv
  intro s t h ht
  unfold step at ht
  split at ht
  · exact tick_keeps_inv h ht
  · exact handle_keeps_inv (h.with_inputs _) ht

end Sys2Proof.Proofs

namespace Sys2Proof.Machine

/-! ## A step by its input -/

theorem step_of_no_input {s : State} (h : s.inputs = []) : step s = tick s := by
  simp [step, h]

theorem step_of_input {s : State} {inp : Input} {rest : List Input} (h : s.inputs = inp :: rest) :
    step s = handle inp { s with inputs := rest } := by
  simp [step, h]

/-! ## Access to a control and status register

An aligned 32-bit access at the offset of a CSR reaches that CSR for every width (R29, R67); what it answers is
`csrRead` and `csrWrite`. -/

section
variable {s t u : State} {c : Csr} {d : Word}

/-- The CSRs stand four bytes apart in the order of the map (R29). -/
theorem idxOf_of_csrMap {i : Nat} (h : csrMap[i]? = some c) : csrMap.idxOf c = i := by
  have hnodup : csrMap.Nodup := by decide
  obtain ⟨hi, rfl⟩ := List.getElem?_eq_some_iff.1 h
  exact hnodup.idxOf_getElem i hi

@[simp] theorem Csr.offset_mod_four (c : Csr) : c.offset % 4 = 0 := Nat.mul_mod_right ..

theorem Access.target_csr (c : Csr) (wr : Option Word) (ww : Nat) :
    (⟨c.offset, wr, 15#4, false⟩ : Access).target ww = some (.csr c) := by
  simp [Access.target, targetOf_csrOffset]

/-- No other offset leads to a CSR (R70). -/
theorem Access.offset_of_target_csr {a : Access} {ww : Nat} (h : a.target ww = some (.csr c)) :
    a.offset = c.offset := by
  unfold Access.target targetOf at h
  split_ifs at h with halign hcsr
  · obtain ⟨c', hc', hcc⟩ := Option.map_eq_some_iff.1 h
    cases hcc
    have hidx := idxOf_of_csrMap hc'
    unfold Csr.offset
    omega
  all_goals simp at h

theorem busAccess_memRead_csr (hr : s.rstLow = false) (c : Csr) :
    busAccess (memRead c.offset) s = .next { s with resp := some (.data (csrRead c s)) } := by
  simp [busAccess, hr, memRead, busRead, Access.target_csr, targetRead]

theorem busAccess_memWrite_csr (hr : s.rstLow = false) (hw : csrWrite c d s = some t) :
    busAccess (memWrite c.offset d) s = .next { t with resp := some .written } := by
  simp [busAccess, hr, memWrite, busWrite, Access.target_csr, targetWrite, hw]

theorem busAccess_memWrite_csr_refused (hr : s.rstLow = false) (hw : csrWrite c d s = none) :
    busAccess (memWrite c.offset d) s = .next { s with resp := some .writeError } := by
  simp [busAccess, hr, memWrite, busWrite, Access.target_csr, targetWrite, hw]

/-- The port's answer is no part of any CSR. -/
@[simp] theorem csrRead_with_resp (c : Csr) (s : State) (r : Option BusResponse) :
    csrRead c { s with resp := r } = csrRead c s := by
  cases c <;> rfl

/-- No write to a CSR holds the block in reset; the soft reset releases it at once (R281). -/
theorem rstLow_of_csrWrite (hr : s.rstLow = false) (hw : csrWrite c d s = some t) : t.rstLow = false := by
  cases c with
  | id | param | status | err | errInfo | attempts => cases hw
  | ctrl =>
    cases hw
    unfold writeCtrl
    split_ifs
    · rfl
    · exact hr
  | cmd =>
    obtain ⟨-, ⟨⟩⟩ := Option.ite_none_left_eq_some.1 hw
    exact hr
  | rounds | limit | bits | predctl | fcnt | irqEn | irqStat => cases hw; exact hr

/-- What a read returns in the state a write of the same CSR has led to. -/
theorem busAccess_memRead_of_memWrite {v : Word} (hr : s.rstLow = false) (hw : csrWrite c d s = some u)
    (hv : csrRead c u = v) (ht : busAccess (memWrite c.offset d) s = .next t) :
    busAccess (memRead c.offset) t = .next { t with resp := some (.data v) } := by
  have hut : { u with resp := some .written } = t := by simpa [busAccess_memWrite_csr hr hw] using ht
  have htr : t.rstLow = false := by rw [← hut]; exact (rstLow_of_csrWrite hr hw :)
  have htv : csrRead c t = v := by rw [← hut, csrRead_with_resp, hv]
  rw [busAccess_memRead_csr htr, htv]

/-- The implemented bits of a CSR are the low `k` bits of the word written (R38 to R44). -/
theorem setWidth_setWidth_eq_and (d : Word) {k : Nat} (hk : k ≤ 32) :
    (d.setWidth k).setWidth 32 = d &&& BitVec.ofNat 32 (2 ^ k - 1) := by
  have hmask : 2 ^ k - 1 < 2 ^ 32 := by
    have := Nat.pow_le_pow_right (n := 2) (by omega) hk
    have := Nat.two_pow_pos k
    omega
  apply BitVec.eq_of_toNat_eq
  rw [BitVec.toNat_and, BitVec.toNat_ofNat, Nat.mod_eq_of_lt hmask, Nat.and_two_pow_sub_one_eq_mod,
    BitVec.toNat_setWidth, BitVec.toNat_setWidth, Nat.mod_eq_of_lt]
  exact (Nat.mod_le _ _).trans_lt d.isLt

/-- Some bit of a word that is not 0 is 1. -/
theorem ne_zero_iff_exists_getLsbD {w : Nat} (q : BitVec w) : q ≠ 0#w ↔ ∃ k, k < w ∧ q.getLsbD k = true := by
  constructor
  · intro hq
    by_contra hall
    refine hq (BitVec.eq_of_getLsbD_eq fun k hk => ?_)
    rw [BitVec.getLsbD_zero]
    exact Bool.eq_false_of_not_eq_true fun hbit => hall ⟨k, hk, hbit⟩
  · rintro ⟨k, -, hbit⟩ rfl
    simp at hbit

/-- `CTRL` with `SRST` reading 0 holds the one bit `SIEVE_EN` (R33). -/
theorem csrRead_ctrl (s : State) : csrRead .ctrl s = (BitVec.ofBool s.sieveEn).setWidth 32 := by
  simp only [csrRead]
  cases s.sieveEn <;> rfl

/-- A half-word above a half-word (R32). -/
theorem append_ofNat_eq (hi : BitVec 16) {lo : Nat} (h : lo < 2 ^ 16) :
    hi ++ BitVec.ofNat 16 lo = BitVec.ofNat 32 (hi.toNat * 2 ^ 16 + lo) := by
  apply BitVec.eq_of_toNat_eq
  rw [BitVec.toNat_append, BitVec.toNat_ofNat, Nat.mod_eq_of_lt h, ← Nat.shiftLeft_add_eq_or_of_lt h,
    Nat.shiftLeft_eq, BitVec.toNat_ofNat]
  omega

theorem paramWord_eq (par : Params) : paramWord par = BitVec.ofNat 32 (0x48100000 + par.ww) := by
  have hww := (ww_bounds par).2
  exact append_ofNat_eq 0x4810#16 (by omega)

end

end Sys2Proof.Machine

namespace Sys2Proof.Proofs

open Sys2Proof.Machine

/-- Settles O6: the write reaches `CMD`, which accepts while not BUSY. -/
theorem cmdWriteAccepts : Obligations.CmdWriteAccepts := by
  unfold Obligations.CmdWriteAccepts
  intro s cw rest hr hb hin
  rw [step_of_input hin]
  exact busAccess_memWrite_csr (s := { s with inputs := rest }) (c := .cmd) hr (if_neg (Bool.eq_false_iff.1 hb))

/-- Settles O9: `STATUS` is a read-only CSR; its word is evaluated in each state of the engine. -/
theorem statusShowsTheEngine : Obligations.StatusShowsTheEngine := by
  unfold Obligations.StatusShowsTheEngine
  intro s d hr
  refine ⟨(busAccess_memRead_csr hr .status).trans ?_, busAccess_memWrite_csr_refused (c := .status) hr rfl⟩
  simp only [csrRead, State.status]
  cases s.engine <;> simp only [Engine.entWait, Engine.isFault, Engine.isDone, Engine.busy] <;>
    cases s.boolFlag <;> rfl

/-- Settles O41: both are constants of the block, and neither takes a write (R31, R32, R71). -/
theorem idAndParamAreConstants : Obligations.IdAndParamAreConstants := by
  unfold Obligations.IdAndParamAreConstants
  intro s d hr
  obtain ⟨hpos, hle⟩ := ww_bounds s.par
  refine ⟨busAccess_memRead_csr hr .id, ?_, busAccess_memWrite_csr_refused (c := .id) hr rfl,
    busAccess_memWrite_csr_refused (c := .param) hr rfl, hpos, hle, rfl⟩
  rw [← paramWord_eq]
  exact busAccess_memRead_csr hr .param

/-- Settles O42: each offset of the list is that of its CSR. -/
theorem csrReadsAlwaysAnswer : Obligations.CsrReadsAlwaysAnswer := by
  unfold Obligations.CsrReadsAlwaysAnswer
  intro s hr
  have hctrl : (if s.sieveEn then 1#32 else 0#32) = csrRead .ctrl s := by
    rw [csrRead_ctrl]
    cases s.sieveEn <;> rfl
  have hread := busAccess_memRead_csr hr
  simp only [hctrl, List.forall_mem_cons]
  exact ⟨hread .ctrl, hread .status, hread .cmd, hread .err, hread .errInfo, hread .rounds, hread .limit, hread .bits,
    hread .attempts, hread .predctl, hread .fcnt, hread .irqEn, hread .irqStat, by simp⟩

/-- Settles O43: the whole next state of each write is that of `csrWrite`; what is then read is the word written, cut to
the implemented bits. -/
theorem csrWritesReadBack : Obligations.CsrWritesReadBack := by
  unfold Obligations.CsrWritesReadBack
  intro s d hr
  have hctrl (h31 : d.getLsbD 31 = false) : csrWrite .ctrl d s = some { s with sieveEn := d.getLsbD 0 } :=
    congrArg some (if_neg (Bool.eq_false_iff.1 h31))
  have hlow {k : Nat} (hk : k ≤ 32) : d.extractLsb' 0 k = d.setWidth k := (BitVec.setWidth_eq_extractLsb' hk).symm
  rw [hlow (by omega : 4 ≤ 32), hlow (by omega : 2 ≤ 32)]
  refine ⟨fun h31 => busAccess_memWrite_csr (c := .ctrl) hr (hctrl h31), busAccess_memWrite_csr (c := .rounds) hr rfl,
    busAccess_memWrite_csr (c := .limit) hr rfl, busAccess_memWrite_csr (c := .bits) hr rfl,
    busAccess_memWrite_csr (c := .predctl) hr rfl, busAccess_memWrite_csr (c := .fcnt) hr rfl,
    busAccess_memWrite_csr (c := .irqEn) hr rfl, ?_⟩
  intro off m t hmem h31 ht
  have hones : d = d &&& 0xFFFFFFFF#32 := BitVec.and_allOnes.symm
  have hone : (BitVec.ofBool (d.getLsbD 0)).setWidth 32 = d &&& 1#32 := by
    rw [← BitVec.setWidth_one]
    exact setWidth_setWidth_eq_and d (by omega)
  have htwo := setWidth_setWidth_eq_and d (show 2 ≤ 32 by omega)
  have hfour := setWidth_setWidth_eq_and d (show 4 ≤ 32 by omega)
  simp only [List.mem_cons, Prod.mk.injEq, List.not_mem_nil, or_false] at hmem
  obtain ⟨rfl, rfl⟩ | ⟨rfl, rfl⟩ | ⟨rfl, rfl⟩ | ⟨rfl, rfl⟩ | ⟨rfl, rfl⟩ | ⟨rfl, rfl⟩ | ⟨rfl, rfl⟩ := hmem
  · exact busAccess_memRead_of_memWrite (c := .ctrl) hr (hctrl (h31 rfl)) ((csrRead_ctrl _).trans hone) ht
  · exact busAccess_memRead_of_memWrite (c := .rounds) hr rfl hones ht
  · exact busAccess_memRead_of_memWrite (c := .limit) hr rfl hones ht
  · exact busAccess_memRead_of_memWrite (c := .bits) hr rfl hones ht
  · exact busAccess_memRead_of_memWrite (c := .predctl) hr rfl hfour ht
  · exact busAccess_memRead_of_memWrite (c := .fcnt) hr rfl hfour ht
  · exact busAccess_memRead_of_memWrite (c := .irqEn) hr rfl htwo ht

/-- Settles O49: a write of 1s clears (R45); the line is high while some bit of both registers is 1 (R252). -/
theorem pendingBitsAndInterruptLine : Obligations.PendingBitsAndInterruptLine := by
  unfold Obligations.PendingBitsAndInterruptLine
  intro s d
  refine ⟨fun hr => ⟨s.irqStat &&& ~~~ d.setWidth 2, fun k hk => ?_, ?_⟩, ?_⟩
  · simp [hk]
  · exact busAccess_memWrite_csr (c := .irqStat) hr rfl
  · simpa [State.irq] using ne_zero_iff_exists_getLsbD (s.irqStat &&& s.irqEn)

/-- Settles O5: the input that lets the engine move is taken away, and the engine runs the latched word. -/
theorem stepRunsDecodedCommand : Obligations.StepRunsDecodedCommand := by
  unfold Obligations.StepRunsDecodedCommand
  intro s rest hacc hin
  have hstep : step s = runCommand { s with inputs := rest } := by
    rw [← tick_of_accepted (s := { s with inputs := rest }) hacc]
    rcases hin with hin | ⟨hin, rfl⟩
    · exact step_of_input hin
    · rw [step_of_no_input hin, ← hin]
  constructor
  · intro i hdec
    rw [hstep, runCommand, hdec]
  · intro why hdec
    rw [hstep, runCommand, hdec]

/-- Settles O46: the fields are those of `State.resetFor`; with no draw outstanding an answer is dropped. -/
theorem resetValues : Obligations.ResetValues := by
  unfold Obligations.ResetValues
  rintro par s rfl
  have hdrop := takeAnswer_of_not_waiting (s := State.resetFor par) (by simp [State.resetFor])
  have hctrl : csrRead .ctrl (State.resetFor par) = 0#32 := csrRead_ctrl (State.resetFor par)
  have hstatus : (State.resetFor par).status = 0#32 := by
    simp [State.status, State.resetFor, Engine.entWait, Engine.isFault, Engine.isDone, Engine.busy]
  have hirq : (State.resetFor par).irq = false := by simp [State.irq, State.resetFor]
  exact ⟨fun i => by simp [State.resetFor], fun k => by simp [State.resetFor], fun k => by simp [State.resetFor], rfl,
    paramWord_eq par, hctrl, hstatus, rfl, rfl, rfl, rfl, rfl, rfl, rfl, rfl, rfl, rfl, rfl, rfl, rfl, hirq, rfl, rfl,
    hdrop⟩

/-- Settles O51: the reset state is the state a reset of it leads to. -/
theorem invAtReset : Obligations.InvAtReset :=
  ⟨inv_resetAll State.reset, fun par => inv_resetAll (State.resetFor par)⟩

end Sys2Proof.Proofs

namespace Sys2Proof.Machine

/-! ## What a host access does to the engine

While BUSY the operand windows and `CMD` are locked (R72, R73), so an access leaves the running command as it is or
resets the block (R281); while not BUSY only a write to `CMD` starts a command (R46). -/

/-- `t` has the engine and all that a running command works with as `s` has them. -/
structure State.SameCommand (s t : State) : Prop where
  engine : t.engine = s.engine
  ctx : t.ctx = s.ctx
  attempts : t.attempts = s.attempts
  x : t.x = s.x
  p : t.p = s.p
  f : t.f = s.f

theorem State.SameCommand.busy {s t : State} (h : s.SameCommand t) : t.busy = s.busy := congrArg Engine.busy h.engine

section
variable {s t : State} {a : Access} {c : Csr} {d : Word} {tgt : Target}

/-- What a write to a CSR can do to the engine. -/
theorem csrWrite_effect (hw : csrWrite c d s = some t) :
    s.SameCommand t ∨ (c = .ctrl ∧ t = resetAll s) ∨ (s.busy = false ∧ c = .cmd) := by
  cases c with
  | id | param | status | err | errInfo | attempts => cases hw
  | ctrl =>
    cases hw
    unfold writeCtrl
    split_ifs
    · exact .inr (.inl ⟨rfl, rfl⟩)
    · exact .inl ⟨rfl, rfl, rfl, rfl, rfl, rfl⟩
  | cmd =>
    obtain ⟨hfree, -⟩ := Option.ite_none_left_eq_some.1 hw
    exact .inr (.inr ⟨Bool.eq_false_of_not_eq_true hfree, rfl⟩)
  | rounds | limit | bits | predctl | fcnt | irqEn | irqStat => cases hw; exact .inl ⟨rfl, rfl, rfl, rfl, rfl, rfl⟩

/-- What a write can do to the engine; the last case is one to an operand window. -/
theorem targetWrite_effect (hw : targetWrite tgt d s = some t) :
    s.SameCommand t ∨ (tgt = .csr .ctrl ∧ t = resetAll s) ∨ (s.busy = false ∧ tgt = .csr .cmd) ∨
      (s.busy = false ∧ t.busy = false) := by
  cases tgt with
  | csr c =>
    obtain hsame | ⟨rfl, hreset⟩ | ⟨hfree, rfl⟩ := csrWrite_effect hw
    · exact .inl hsame
    · exact .inr (.inl ⟨rfl, hreset⟩)
    · exact .inr (.inr (.inl ⟨hfree, rfl⟩))
  | x i j | p k j | f k j =>
    obtain ⟨hbusy, ⟨⟩⟩ := Option.ite_none_left_eq_some.1 hw
    have hfree : s.busy = false := Bool.eq_false_of_not_eq_true hbusy
    exact .inr (.inr (.inr ⟨hfree, hfree⟩))

theorem busRead_sameCommand (a : Access) (s : State) : s.SameCommand (busRead a s) := by
  obtain ⟨d, hd⟩ | he := busRead_cases a s
  · rw [hd]; exact ⟨rfl, rfl, rfl, rfl, rfl, rfl⟩
  · rw [he]; exact ⟨rfl, rfl, rfl, rfl, rfl, rfl⟩

/-- What an access can do to the engine: nothing, the soft reset, acceptance, or a write of an operand while no command
runs. -/
theorem busAccess_effect (h : busAccess a s = .next t) :
    s.SameCommand t ∨ (a.offset = 0x008 ∧ t = { resetAll s with resp := some .written }) ∨
      (s.busy = false ∧ a.offset = 0x010 ∧ a.write.isSome = true) ∨ (s.busy = false ∧ t.busy = false) := by
  obtain ⟨-, hrefused⟩ | ⟨-, -, hread⟩ | ⟨-, d, hd, hwrite⟩ := busAccess_cases a s
  · simp [hrefused] at h
  · obtain rfl : busRead a s = t := by simpa [hread] using h
    exact .inl (busRead_sameCommand a s)
  · obtain rfl : busWrite a d s = t := by simpa [hwrite] using h
    obtain ⟨tgt, u, htgt, hu, hw⟩ | he := busWrite_cases a d s
    · rw [hw]
      obtain hsame | ⟨rfl, rfl⟩ | ⟨hfree, rfl⟩ | hfree := targetWrite_effect hu
      · exact .inl { hsame with }
      · exact .inr (.inl ⟨Access.offset_of_target_csr htgt, rfl⟩)
      · exact .inr (.inr (.inl ⟨hfree, Access.offset_of_target_csr htgt, by simp [hd]⟩))
      · exact .inr (.inr (.inr hfree))
    · rw [he]; exact .inl ⟨rfl, rfl, rfl, rfl, rfl, rfl⟩

/-- An access while BUSY leaves the command as it is, unless it writes `CTRL` and resets the block. -/
theorem busAccess_of_busy (hb : s.busy = true) (h : busAccess a s = .next t) :
    s.SameCommand t ∨ (a.offset = 0x008 ∧ t = { resetAll s with resp := some .written }) := by
  obtain hsame | hreset | ⟨hfree, -⟩ | ⟨hfree, -⟩ := busAccess_effect h
  · exact .inl hsame
  · exact .inr hreset
  · simp [hb] at hfree
  · simp [hb] at hfree

/-- An access that starts a command writes `CMD`. -/
theorem busAccess_starts (hb : s.busy = false) (h : busAccess a s = .next t) (ht : t.busy = true) :
    a.offset = 0x010 ∧ a.write.isSome = true := by
  obtain hsame | ⟨-, rfl⟩ | ⟨-, hcmd⟩ | ⟨-, hfree⟩ := busAccess_effect h
  · simp [← hsame.busy, ht] at hb
  · cases ht
  · exact hcmd
  · simp [ht] at hfree

/-- The engine's own step, or an answer of the entropy source, leads from `s` to `t`. -/
def State.EngineMoves (s t : State) : Prop := tick s = .next t ∨ ∃ v, t = takeAnswer v s

/-- An access in the cycle of the engine's move is performed first, then the move (R45, R253). -/
theorem accessWithStep_cases {ans : Option Nat} (h : accessWithStep a ans s = .next t) :
    ∃ u, busAccess a s = .next u ∧ u.EngineMoves t := by
  unfold accessWithStep at h
  split at h
  next u hu =>
    refine ⟨u, hu, ?_⟩
    cases ans with
    | none => exact .inl h
    | some v => cases h; exact .inr ⟨v, rfl⟩
  · cases h
  · cases h

end

/-! ## The engine does not move while not BUSY (R26, R267) -/

section
variable {s t : State}

theorem engine_ne_accepted_of_not_busy (hb : s.busy = false) : s.engine ≠ .accepted := fun e => by
  simp [State.busy, e, Engine.busy] at hb

theorem engine_ne_waiting_of_not_busy (hb : s.busy = false) (w : Wait) : s.engine ≠ .waiting w := fun e => by
  simp [State.busy, e, Engine.busy] at hb

theorem State.EngineMoves.eq_of_not_busy (h : s.EngineMoves t) (hb : s.busy = false) : t = s := by
  obtain htick | ⟨v, rfl⟩ := h
  · rw [tick_of_not_accepted (engine_ne_accepted_of_not_busy hb)] at htick
    cases htick
    rfl
  · exact takeAnswer_of_not_waiting (engine_ne_waiting_of_not_busy hb) v

end

end Sys2Proof.Machine

namespace Sys2Proof

/-- The commands that make draws (R78, R81). -/
def Instr.draws : Instr → Bool
  | .mrtest _ => true
  | .randodd _ => true
  | .primegen _ _ => true
  | .genfind _ _ _ => true
  | _ => false

end Sys2Proof

namespace Sys2Proof.Machine

/-! ## A run of the engine as one move

A command between acceptance and where it stops takes any number of answers; all it can have done then is one move in
the sense of `MovesTo`, for a move from a draw overwrites the draw. -/

section
variable {rd? : Option Reg} {s t u : State}

theorem MovesTo.with_inputs (h : MovesTo rd? s t) (l : List Input) :
    MovesTo rd? { s with inputs := l } { t with inputs := l } := by
  obtain ⟨n, ⟨rd, v, hrd, rfl⟩ | ⟨b, hrd, rfl⟩ | ⟨flt, rfl⟩ | ⟨w, hw, rfl⟩⟩ := h
  · exact ⟨n, .inl ⟨rd, v, hrd, rfl⟩⟩
  · exact ⟨n, .inr (.inl ⟨b, hrd, rfl⟩)⟩
  · exact ⟨n, .inr (.inr (.inl ⟨flt, rfl⟩))⟩
  · exact ⟨n, .inr (.inr (.inr ⟨w, hw, rfl⟩))⟩

theorem MovesTo.inputs (h : MovesTo rd? s t) : t.inputs = s.inputs := by
  obtain ⟨n, ⟨rd, v, hrd, rfl⟩ | ⟨b, hrd, rfl⟩ | ⟨flt, rfl⟩ | ⟨w, hw, rfl⟩⟩ := h <;> rfl

/-- Where a move stops: DONE, FAULT or a draw of the same command (R26, R246, R247). -/
theorem MovesTo.stops (h : MovesTo rd? s t) :
    (t.engine = .done ∧ t.irqStat = s.irqStat ||| donePending) ∨
      (t.engine = .fault ∧ t.irqStat = s.irqStat ||| faultPending) ∨
      (∃ w : Wait, t.engine = .waiting w ∧ t.irqStat = s.irqStat ∧ w.rd? = rd?) := by
  obtain ⟨n, ⟨rd, v, hrd, rfl⟩ | ⟨b, hrd, rfl⟩ | ⟨flt, rfl⟩ | ⟨w, hw, rfl⟩⟩ := h
  · exact .inl ⟨rfl, rfl⟩
  · exact .inl ⟨rfl, rfl⟩
  · exact .inr (.inl ⟨rfl, rfl⟩)
  · exact .inr (.inr ⟨w, rfl, rfl, hw⟩)

theorem MovesTo.waiting_of_busy (h : MovesTo rd? s t) (hb : t.busy = true) : ∃ w, t.engine = .waiting w := by
  obtain ⟨he, -⟩ | ⟨he, -⟩ | ⟨w, he, -⟩ := h.stops
  · simp [State.busy, he, Engine.busy] at hb
  · simp [State.busy, he, Engine.busy] at hb
  · exact ⟨w, he⟩

/-- A move that leaves BUSY is an end. -/
theorem MovesTo.ended_of_not_busy (h : MovesTo rd? s t) (hb : t.busy = false) :
    t.engine = .done ∨ t.engine = .fault := by
  obtain ⟨he, -⟩ | ⟨he, -⟩ | ⟨w, he, -⟩ := h.stops
  · exact .inl he
  · exact .inr he
  · exact absurd he (engine_ne_waiting_of_not_busy hb w)

/-- Two moves of one command are one. -/
theorem MovesTo.trans {w : Wait} (h : MovesTo rd? s t) (hw : t.engine = .waiting w) (h' : MovesTo w.rd? t u) :
    MovesTo rd? s u := by
  obtain ⟨n, ⟨rd, v, hrd, rfl⟩ | ⟨b, hrd, rfl⟩ | ⟨flt, rfl⟩ | ⟨w₀, rfl, rfl⟩⟩ := h
  · cases hw
  · cases hw
  · cases hw
  · cases hw
    obtain ⟨m, ⟨rd, v, hrd, rfl⟩ | ⟨b, hrd, rfl⟩ | ⟨flt, rfl⟩ | ⟨w', hw', rfl⟩⟩ := h'
    · exact ⟨m, .inl ⟨rd, v, hrd, rfl⟩⟩
    · exact ⟨m, .inr (.inl ⟨b, hrd, rfl⟩)⟩
    · exact ⟨m, .inr (.inr (.inl ⟨flt, rfl⟩))⟩
    · exact ⟨m, .inr (.inr (.inr ⟨w', hw', rfl⟩))⟩

/-- With the answers that come next taken it is still one move, but for the inputs used up. -/
theorem MovesTo.serve (h : MovesTo rd? s t) (l : List Input) :
    MovesTo rd? { s with inputs := (serve t l).inputs } (serve t l) := by
  refine serve_induction (P := fun u => MovesTo rd? { s with inputs := u.inputs } u) ?_ ?_ t l ?_
  · intro u w v hu hw
    have hmove := movesTo_resume w (portWord u v) u
    rw [hmove.inputs]
    exact hu.trans hw hmove
  · intro u l hu
    exact hu.with_inputs l
  · rw [h.inputs]
    exact h

theorem movesTo_takeAnswer {w : Wait} (hw : s.engine = .waiting w) (v : Nat) :
    MovesTo w.rd? { s with inputs := (takeAnswer v s).inputs } (takeAnswer v s) := by
  rw [takeAnswer_of_waiting hw]
  exact (movesTo_resume w _ s).serve s.inputs

end

/-! ## A command as its start and its draws

Every command runs from its acceptance to its end or its first draw, its start, and then takes the answers that come
next (R48, R80). -/

/-- The state an outcome goes on to, or the one it came from. -/
def nextOr (s : State) : Host.Outcome State Fault Refusal → State
  | .next t => t
  | .fault _ => s
  | .refused _ => s

/-- The start of a command: up to its first draw, or to its end where it makes none. -/
def startOf (i : Instr) (s : State) : State :=
  match i with
  | .mrtest _ => mrtestStart s
  | .randodd rd => randoddStart rd s
  | .primegen rd _ => primegenStart rd s
  | .genfind mode rd _ =>
    if mode = Mode.reserved then raise (.illegalCommand .reservedMode) s else genfindStart mode rd s
  | i => nextOr s (exec i s)

/-- `t` is `s` after a command that makes no draw has ended; only rounds and attempts count in `ATTEMPTS` (R41). -/
structure EndsIn (rd? : Option Reg) (s t : State) : Prop where
  moves : MovesTo rd? s t
  ended : t.busy = false
  attempts : t.attempts = s.attempts

section
variable {s t : State} {i : Instr}

theorem endsIn_finishValue (rd : Reg) (v : Nat) (s : State) : EndsIn (some rd) s (finishValue rd v s) :=
  ⟨movesTo_finishValue rd v s, rfl, rfl⟩

theorem endsIn_finishBool (b : Bool) (s : State) : EndsIn none s (finishBool b s) :=
  ⟨⟨s.attempts, .inr (.inl ⟨b, rfl, rfl⟩)⟩, rfl, rfl⟩

theorem endsIn_raise (rd? : Option Reg) (flt : CommandFault) (s : State) : EndsIn rd? s (raise flt s) :=
  ⟨movesTo_raise rd? flt s, rfl, rfl⟩

theorem endsIn_raiseParam (rd? : Option Reg) (cause : ParamCause) (s : State) : EndsIn rd? s (raiseParam cause s) :=
  endsIn_raise rd? _ s

/-- The commands that make no draw end at once. -/
theorem endsIn_of_exec (hdraws : i.draws = false) (h : exec i s = .next t) : EndsIn i.rd? s t := by
  cases i with
  | modmul | modexp =>
    cases h
    split_ifs
    · exact endsIn_raiseParam ..
    · exact endsIn_finishValue ..
  | montmul | montr2 =>
    cases h
    split
    · exact endsIn_raiseParam ..
    · exact endsIn_finishValue ..
  | modinv =>
    cases h
    split_ifs
    · exact endsIn_raiseParam ..
    · exact endsIn_raise ..
    · exact endsIn_finishValue ..
  | gcd => cases h; exact endsIn_finishValue ..
  | trialdiv => cases h; exact endsIn_finishBool ..
  | isgen =>
    cases h
    unfold isgenRun
    split_ifs
    · exact endsIn_raise ..
    · split
      · exact endsIn_raiseParam ..
      · exact endsIn_finishBool ..
  | mrtest | randodd | primegen | genfind => cases hdraws

theorem movesTo_mrtestStart (s : State) : MovesTo none s (mrtestStart s) := by
  unfold mrtestStart
  split_ifs
  · exact movesTo_raise ..
  · split
    · exact (endsIn_finishBool ..).moves
    · exact movesTo_placeDraw (.mrtest s.src1 s.ctx.rounds.toNat) s

theorem movesTo_randoddStart (rd : Reg) (s : State) : MovesTo (some rd) s (randoddStart rd s) := by
  unfold randoddStart
  split_ifs
  · exact movesTo_raise ..
  · exact movesTo_placeDraw (.randodd rd s.ctx.bits.toNat) s

theorem movesTo_primegenStart (rd : Reg) (s : State) : MovesTo (some rd) s (primegenStart rd s) := by
  unfold primegenStart
  split_ifs
  · exact movesTo_raise ..
  · exact movesTo_raise ..
  · exact movesTo_primegenAttempt ..

theorem movesTo_genfindStart (mode : Mode) (rd : Reg) (s : State) : MovesTo (some rd) s (genfindStart mode rd s) := by
  unfold genfindStart
  split
  · exact movesTo_raise ..
  · exact movesTo_genfindAttempt ..

/-- A command that makes no draw is its start. -/
theorem exec_eq_startOf (hdraws : i.draws = false) (s : State) : exec i s = .next (startOf i s) := by
  cases i with
  | mrtest | randodd | primegen | genfind => cases hdraws
  | modmul | montmul | montr2 | modexp | modinv | gcd | trialdiv | isgen => rfl

theorem startOf_genfind (mode : Mode) (rd rs3 : Reg) (s : State) :
    startOf (.genfind mode rd rs3) s =
      if mode = Mode.reserved then raise (.illegalCommand .reservedMode) s else genfindStart mode rd s := rfl

theorem movesTo_startOf (i : Instr) (s : State) : MovesTo i.rd? s (startOf i s) := by
  by_cases hdraws : i.draws = false
  · exact (endsIn_of_exec hdraws (exec_eq_startOf hdraws s)).moves
  · cases i with
    | mrtest => exact movesTo_mrtestStart s
    | randodd rd => exact movesTo_randoddStart rd s
    | primegen rd => exact movesTo_primegenStart rd s
    | genfind mode rd =>
      rw [startOf_genfind]
      split_ifs
      · exact movesTo_raise ..
      · exact movesTo_genfindStart mode rd s
    | modmul | montmul | montr2 | modexp | modinv | gcd | trialdiv | isgen => exact absurd rfl hdraws

/-- Every command answers: its start, and then the draws for which answers come next (R290). -/
theorem exec_eq_serve (i : Instr) (s : State) : exec i s = .next (serve (startOf i s) s.inputs) := by
  by_cases hdraws : i.draws = false
  · have hends := endsIn_of_exec hdraws (exec_eq_startOf hdraws s)
    rw [exec_eq_startOf hdraws, serve_of_not_waiting (engine_ne_waiting_of_not_busy hends.ended), ← hends.moves.inputs]
  · cases i with
    | mrtest | randodd | primegen => rfl
    | genfind mode rd rs3 =>
      simp only [exec, execGenfind, startOf_genfind]
      split_ifs
      · rw [serve_raise]; rfl
      · rfl
    | modmul | montmul | montr2 | modexp | modinv | gcd | trialdiv | isgen => exact absurd rfl hdraws

theorem movesTo_of_exec (h : exec i s = .next t) : MovesTo i.rd? { s with inputs := t.inputs } t := by
  rw [exec_eq_serve] at h
  cases h
  exact (movesTo_startOf i s).serve s.inputs

end

end Sys2Proof.Machine

namespace Sys2Proof.Machine

/-! ## What a move leaves unchanged -/

section
variable {rd? : Option Reg} {s t : State}

/-- The operand files besides `x`, the configuration, the context and the model's own fields but the inputs. -/
theorem MovesTo.frame (h : MovesTo rd? s t) :
    t.p = s.p ∧ t.f = s.f ∧ t.sieveEn = s.sieveEn ∧ t.cmd = s.cmd ∧ t.rounds = s.rounds ∧ t.limit = s.limit ∧
      t.bits = s.bits ∧ t.predctl = s.predctl ∧ t.fcnt = s.fcnt ∧ t.irqEn = s.irqEn ∧ t.ctx = s.ctx ∧
      t.par = s.par ∧ t.resp = s.resp ∧ t.rstLow = s.rstLow ∧ t.erroredReads = s.erroredReads := by
  obtain ⟨n, ⟨rd, v, hrd, rfl⟩ | ⟨b, hrd, rfl⟩ | ⟨flt, rfl⟩ | ⟨w, hw, rfl⟩⟩ := h <;> and_intros <;> rfl

/-- Only the destination is written (R22, R246). -/
theorem MovesTo.reg_of_ne (h : MovesTo rd? s t) {r : Reg} (hr : rd? ≠ some r) : t.reg r = s.reg r := by
  obtain ⟨n, ⟨rd, v, rfl, rfl⟩ | ⟨b, hrd, rfl⟩ | ⟨flt, rfl⟩ | ⟨w, hw, rfl⟩⟩ := h
  · have hne : r ≠ rd := fun e => hr (congrArg some e.symm)
    rw [reg_finishValue, if_neg hne]
    rfl
  · rfl
  · rfl
  · rfl

/-- A code and its detail are set in FAULT alone (R247). -/
theorem MovesTo.err_of_not_fault (h : MovesTo rd? s t) (ht : t.engine ≠ .fault) :
    t.err = s.err ∧ t.errInfo = s.errInfo := by
  obtain ⟨n, ⟨rd, v, hrd, rfl⟩ | ⟨b, hrd, rfl⟩ | ⟨flt, rfl⟩ | ⟨w, hw, rfl⟩⟩ := h
  · exact ⟨rfl, rfl⟩
  · exact ⟨rfl, rfl⟩
  · exact absurd rfl ht
  · exact ⟨rfl, rfl⟩

/-- A command with a destination does not write `BOOL` (R246). -/
theorem MovesTo.boolFlag_of_rd {rd : Reg} (h : MovesTo (some rd) s t) : t.boolFlag = s.boolFlag := by
  obtain ⟨n, ⟨rd, v, hrd, rfl⟩ | ⟨b, hrd, rfl⟩ | ⟨flt, rfl⟩ | ⟨w, hw, rfl⟩⟩ := h
  · rfl
  · cases hrd
  · rfl
  · rfl

/-- The commands without a destination are those that write `BOOL` (R246). -/
theorem rd_isSome_of_no_bool {i : Instr} (hmrtest : ∀ r, i ≠ .mrtest r) (htrialdiv : ∀ r, i ≠ .trialdiv r)
    (hisgen : ∀ m r q, i ≠ .isgen m r q) : ∃ rd, i.rd? = some rd := by
  cases i with
  | mrtest r => exact absurd rfl (hmrtest r)
  | trialdiv r => exact absurd rfl (htrialdiv r)
  | isgen m r q => exact absurd rfl (hisgen m r q)
  | modmul rd | montmul rd | montr2 rd | modexp rd | modinv rd | gcd rd | randodd rd | primegen rd => exact ⟨rd, rfl⟩
  | genfind m rd => exact ⟨rd, rfl⟩

/-- The count is `n`, and a draw that is outstanding is RANDODD's. -/
def State.RandoddCounts (n : Word) (s : State) : Prop :=
  s.attempts = n ∧ ∀ w, s.engine = .waiting w → ∃ rd len, w = .randodd rd len

theorem randoddCounts_start (rd : Reg) (s : State) : (randoddStart rd s).RandoddCounts s.attempts := by
  unfold randoddStart
  split_ifs
  · exact ⟨rfl, fun w hw => by cases hw⟩
  · exact ⟨rfl, fun w hw => by cases hw; exact ⟨_, _, rfl⟩⟩

/-- RANDODD makes one draw and counts none (R41, R186). -/
theorem randoddCounts_serve {n : Word} (h : s.RandoddCounts n) (l : List Input) : (serve s l).RandoddCounts n := by
  refine serve_induction (P := State.RandoddCounts n) ?_ (fun _ _ hu => hu) s l h
  intro u w v ⟨hcount, hdraw⟩ hw
  obtain ⟨rd, len, rfl⟩ := hdraw w hw
  exact ⟨hcount, fun w' hw' => by cases hw'⟩

/-- Only MRTEST, PRIMEGEN and GENFIND count (R41). -/
theorem attempts_of_exec {i : Instr} (hmrtest : ∀ r, i ≠ .mrtest r) (hprimegen : ∀ r q, i ≠ .primegen r q)
    (hgenfind : ∀ m r q, i ≠ .genfind m r q) (h : exec i s = .next t) : t.attempts = s.attempts := by
  cases i with
  | mrtest r => exact absurd rfl (hmrtest r)
  | primegen r q => exact absurd rfl (hprimegen r q)
  | genfind m r q => exact absurd rfl (hgenfind m r q)
  | randodd rd => cases h; exact (randoddCounts_serve (randoddCounts_start rd s) s.inputs).1
  | modmul | montmul | montr2 | modexp | modinv | gcd | trialdiv | isgen => exact (endsIn_of_exec rfl h).attempts

end

/-! ## Entering and leaving BUSY (R26) -/

section
variable {s t : State} {inp : Input}

theorem runCommand_ends (h : runCommand s = .next t) (ht : t.busy = false) : t.engine = .done ∨ t.engine = .fault := by
  unfold runCommand at h
  split at h
  · exact (movesTo_of_exec h).ended_of_not_busy ht
  · cases h; exact .inr rfl

/-- A running command leaves BUSY by its end alone. -/
theorem State.EngineMoves.ends (h : s.EngineMoves t) (hb : s.busy = true) (ht : t.busy = false) :
    t.engine = .done ∨ t.engine = .fault := by
  have hmoved : t ≠ s := fun e => by simp [e, hb] at ht
  obtain htick | ⟨v, rfl⟩ := h
  · by_cases hacc : s.engine = .accepted
    · exact runCommand_ends (tick_of_accepted hacc ▸ htick) ht
    · rw [tick_of_not_accepted hacc] at htick
      cases htick
      exact absurd rfl hmoved
  · obtain hacc | ⟨w, hw⟩ := (busy_iff s).1 hb
    · exact absurd (takeAnswer_of_not_waiting (by simp [hacc]) v) hmoved
    · exact (movesTo_takeAnswer hw v).ended_of_not_busy ht

/-- The input that starts a command is an access that writes `CMD` (R46). -/
theorem handle_starts (hb : s.busy = false) (h : handle inp s = .next t) (ht : t.busy = true) :
    ∃ a : Access, a.offset = 0x010 ∧ a.write.isSome = true ∧ (inp = .access a ∨ ∃ ans, inp = .sameCycle a ans) := by
  have hmoved : t ≠ s := fun e => by simp [e, hb] at ht
  cases inp with
  | tick => exact absurd (State.EngineMoves.eq_of_not_busy (.inl h) hb) hmoved
  | answer v => cases h; exact absurd (State.EngineMoves.eq_of_not_busy (.inr ⟨v, rfl⟩) hb) hmoved
  | lateAnswer v => cases h; exact absurd rfl hmoved
  | access a =>
    obtain ⟨hoff, hwrite⟩ := busAccess_starts hb h ht
    exact ⟨a, hoff, hwrite, .inl rfl⟩
  | sameCycle a ans =>
    obtain ⟨u, hu, hmove⟩ := accessWithStep_cases h
    have hubusy : u.busy = true := by
      by_contra hfree
      have hfree := Bool.eq_false_of_not_eq_true hfree
      simp [hmove.eq_of_not_busy hfree, hfree] at ht
    obtain ⟨hoff, hwrite⟩ := busAccess_starts hb hu hubusy
    exact ⟨a, hoff, hwrite, .inr ⟨ans, rfl⟩⟩
  | rstN level =>
    cases h
    obtain hsame | hreset := driveResetPin_cases level s
    · exact absurd hsame hmoved
    · rw [hreset] at ht; cases ht

/-- An input that ends BUSY ends the command or resets the block (R26, R280, R281). -/
theorem handle_ends (hb : s.busy = true) (h : handle inp s = .next t) (ht : t.busy = false) :
    t.engine = .done ∨ t.engine = .fault ∨ ∃ r low, t = { resetAll s with resp := r, rstLow := low } := by
  have hmoved : t ≠ s := fun e => by simp [e, hb] at ht
  cases inp with
  | tick => exact or_assoc.1 (.inl (State.EngineMoves.ends (.inl h) hb ht))
  | answer v => cases h; exact or_assoc.1 (.inl (State.EngineMoves.ends (.inr ⟨v, rfl⟩) hb ht))
  | lateAnswer v => cases h; exact absurd rfl hmoved
  | access a =>
    obtain hsame | ⟨-, rfl⟩ := busAccess_of_busy hb h
    · simp [hsame.busy, hb] at ht
    · exact .inr (.inr ⟨some .written, false, rfl⟩)
  | sameCycle a ans =>
    obtain ⟨u, hu, hmove⟩ := accessWithStep_cases h
    obtain hsame | ⟨-, rfl⟩ := busAccess_of_busy hb hu
    · exact or_assoc.1 (.inl (hmove.ends (hsame.busy.trans hb) ht))
    · exact .inr (.inr ⟨some .written, false, hmove.eq_of_not_busy rfl⟩)
  | rstN level =>
    cases h
    obtain hsame | hreset := driveResetPin_cases level s
    · exact absurd hsame hmoved
    · exact .inr (.inr ⟨s.resp, !level, hreset⟩)

end

/-! ## The request a waiting engine has placed (R49, R78, R79) -/

theorem State.request_of_waiting {s : State} {w : Wait} (h : s.engine = .waiting w) : s.request = some w.request := by
  simp [State.request, h]

theorem State.waiting_of_request {s : State} {r : Request} (h : s.request = some r) :
    ∃ w, s.engine = .waiting w ∧ w.request = r := by
  cases he : s.engine with
  | waiting w => exact ⟨w, rfl, by simpa [State.request, he] using h⟩
  | idle | accepted | done | fault => simp [State.request, he] at h

/-- A number that is left to the rounds is odd and at least 5 (R168). -/
theorem five_le_of_primeLookup_none {n : Nat} (h : primeLookup n = none) : 5 ≤ n := by
  unfold primeLookup at h
  split_ifs at h with hsmall heven
  omega

/-- A group modulus that passes `CheckGroup` is at least 3 (R217). -/
theorem three_le_of_checkGroup_none {mode : Mode} {p : Nat} {s : State} (h : checkGroup mode p s = none) : 3 ≤ p := by
  by_contra hlt
  simp [checkGroup, Nat.not_le.1 hlt] at h

/-- What the rules allow a request to be (R78, R79). -/
def Request.WithinBounds (par : Params) : Request → Prop
  | .bits k => 1 ≤ k ∧ k ≤ par.width
  | .range lo hi => lo = 2 ∧ lo ≤ hi ∧ hi < par.radix

/-- The draw a command's rule makes is a request within the bounds. -/
theorem Wait.Sound.request_withinBounds {s : State} (hfit : s.OperandsFit) {w : Wait} (hw : w.Sound s) :
    w.request.WithinBounds s.par := by
  cases w with
  | randodd rd len =>
    obtain ⟨-, -, hpos, hle, -⟩ := hw
    exact ⟨hpos, hle⟩
  | mrtest n left =>
    obtain ⟨-, rfl, hlookup, -, -⟩ := hw
    have hn := five_le_of_primeLookup_none hlookup
    have hlt := hfit.src1
    exact ⟨rfl, by omega, by omega⟩
  | primegenCandidate rd len =>
    obtain ⟨-, rfl, hpos, -, -⟩ := hw
    exact ⟨hpos, (bitlen_le_iff _ _).2 hfit.src1⟩
  | primegenBase rd len c left =>
    obtain ⟨-, hlen, hc, hlookup, -, -, -, -⟩ := hw
    have hn := five_le_of_primeLookup_none hlookup
    have hlt : c < s.par.radix :=
      (bitlen_le_iff _ _).1 ((hc.trans hlen).trans_le ((bitlen_le_iff _ _).2 hfit.src1))
    exact ⟨rfl, by omega, by omega⟩
  | genfind mode rd p =>
    obtain ⟨-, rfl, hgroup, -⟩ := hw
    have hp := three_le_of_checkGroup_none hgroup
    have hlt := hfit.src3
    exact ⟨rfl, by omega, by omega⟩

theorem status_getLsbD_four (s : State) : s.status.getLsbD 4 = s.engine.entWait := by
  unfold State.status
  generalize s.engine.entWait = e, s.engine.isFault = q, s.engine.isDone = d, s.engine.busy = b, s.boolFlag = v
  revert e q d b v
  decide

/-! ## The fields of a decoded word (R91, R94, R95) -/

/-- A word that decodes gives its command's fields. -/
theorem fields_of_decode {cw : Word} {i : Instr} (h : decode cw = .ok i) :
    (∀ r, i.rs1? = some r → fieldRs1 cw = r) ∧ (∀ r, i.rs2? = some r → fieldRs2 cw = r) ∧
      (∀ r, i.rs3? = some r → fieldRs3 cw = r) := by
  unfold decode at h
  split at h
  · cases h
  next o _ =>
    split_ifs at h
    cases h
    cases o <;> simp [Opcode.build, Instr.rs1?, Instr.rs2?, Instr.rs3?]

end Sys2Proof.Machine

namespace Sys2Proof.Proofs

open Sys2Proof.Machine

/-- Settles O8: an access can start a command or reset the block, a run of the engine can only end in DONE or FAULT, and
no other input moves a machine that is not BUSY. -/
theorem busyEnteredAndLeft : Obligations.BusyEnteredAndLeft := by
  unfold Obligations.BusyEnteredAndLeft
  intro s t h
  cases hin : s.inputs with
  | nil =>
    rw [step_of_no_input hin] at h
    refine ⟨fun hb ht => ?_, fun hb ht => or_assoc.1 (.inl (State.EngineMoves.ends (.inl h) hb ht))⟩
    rw [State.EngineMoves.eq_of_not_busy (.inl h) hb, hb] at ht
    cases ht
  | cons inp rest =>
    rw [step_of_input hin] at h
    refine ⟨fun hb ht => ?_, fun hb ht => ?_⟩
    · obtain ⟨a, hoff, hwrite, hinp⟩ := handle_starts (s := { s with inputs := rest }) hb h ht
      exact ⟨a, rest, hoff, hwrite, by simpa using hinp⟩
    · obtain hdone | hfault | ⟨r, low, hreset⟩ := handle_ends (s := { s with inputs := rest }) hb h ht
      · exact .inl hdone
      · exact .inr (.inl hfault)
      · exact .inr (.inr ⟨rest, r, low, hreset⟩)

/-- Settles O34: `tick` leaves a waiting engine, an access that is not to `CTRL` leaves a running command, and an answer
with no draw outstanding is dropped. -/
theorem unansweredDrawWaits : Obligations.UnansweredDrawWaits := by
  unfold Obligations.UnansweredDrawWaits
  constructor
  · intro s w rest hw
    have htick : ∀ u : State, u.engine = .waiting w → tick u = .next u := fun u hu =>
      tick_of_not_accepted (by simp [hu])
    refine ⟨fun hin => ?_, fun hin => ?_, fun a t hoff hin ht => ?_⟩
    · rw [step_of_no_input hin, htick s hw]
    · rw [step_of_input hin]
      exact htick _ hw
    · rw [step_of_input hin] at ht
      have hbusy : ({ s with inputs := rest } : State).busy = true := (busy_iff _).2 (.inr ⟨w, hw⟩)
      obtain ⟨he, hctx, hatt, hx, hp, hf⟩ | ⟨hctrl, -⟩ := busAccess_of_busy hbusy ht
      · exact ⟨he.trans hw, hctx, hatt, hx, hp, hf⟩
      · exact absurd hctrl hoff
  · intro s v rest
    refine ⟨fun hin => step_of_input hin, fun hreq hin => ?_⟩
    have hidle : ∀ w, s.engine ≠ .waiting w := fun w hw => by simp [State.request_of_waiting hw] at hreq
    rw [step_of_input hin]
    exact congrArg Host.Outcome.next (takeAnswer_of_not_waiting (s := { s with inputs := rest }) hidle v)

/-- Settles O35: an outstanding request is that of a draw its command's rule makes. -/
theorem requestsAreWithinBounds : Obligations.RequestsAreWithinBounds := by
  unfold Obligations.RequestsAreWithinBounds
  intro s h
  have hbounds {r : Request} (hr : s.request = some r) : r.WithinBounds s.par := by
    obtain ⟨w, hw, rfl⟩ := State.waiting_of_request hr
    exact (h.drawSound w hw).request_withinBounds h.operandsFit
  refine ⟨?_, fun k hk => hbounds hk, fun lo hi hr => hbounds hr⟩
  rw [status_getLsbD_four]
  unfold State.request
  cases s.engine <;> simp [Engine.entWait]

/-- Settles O53: the latched word is `CMD` and its sources are those of the fields the decoder reads. -/
theorem runningCommandReadsItsRegisters : Obligations.RunningCommandReadsItsRegisters := by
  unfold Obligations.RunningCommandReadsItsRegisters
  intro s i h hacc hdec
  obtain ⟨hcw, h1, h2, h3⟩ := h.latched ((busy_iff s).2 (.inl hacc))
  obtain ⟨hrs1, hrs2, hrs3⟩ := fields_of_decode (hcw ▸ hdec)
  exact ⟨hcw, fun r hr => hrs1 r hr ▸ h1, fun r hr => hrs2 r hr ▸ h2, fun r hr => hrs3 r hr ▸ h3⟩

/-- Settles O54: a command is one move, which writes its destination, its verdict or its fault and the count. -/
theorem commandFrame : Obligations.CommandFrame := by
  unfold Obligations.CommandFrame
  intro i s t h
  have hmove := movesTo_of_exec h
  obtain ⟨hp, hf, hsieve, hcmd, hrounds, hlimit, hbits, hpred, hfcnt, hirq, hctx, hpar, hresp, hrst, herrored⟩ :=
    hmove.frame
  refine ⟨hp, hf, hsieve, hcmd, hrounds, hlimit, hbits, hpred, hfcnt, hirq, hctx, hpar, hresp, hrst, herrored,
    fun r hr => hmove.reg_of_ne hr, hmove.err_of_not_fault, fun hm ht hi => ?_,
    fun hm hp hg => attempts_of_exec hm hp hg h⟩
  obtain ⟨rd, hrd⟩ := rd_isSome_of_no_bool hm ht hi
  exact (hrd ▸ hmove).boolFlag_of_rd

/-- Settles O55: a command's start and its draws are one move, which stops in DONE, in FAULT or at a draw. -/
theorem everyCommandAnswers : Obligations.EveryCommandAnswers := by
  unfold Obligations.EveryCommandAnswers
  intro i s
  refine ⟨_, exec_eq_serve i s, ?_⟩
  obtain hdone | hfault | ⟨w, he, hirq, hrd⟩ := (movesTo_of_exec (exec_eq_serve i s)).stops
  · exact .inl hdone
  · exact .inr (.inl hfault)
  · refine .inr (.inr ⟨w, he, hirq, ?_⟩)
    rw [← hrd]
    cases w <;> rfl

end Sys2Proof.Proofs

namespace Sys2Proof.Machine

/-! ## What a running command does not read

A running command reads the latched context, `ATTEMPTS`, the `p` and `f` files and the parameters (R47), so an update of
any other field of the state commutes with all it does: the inputs to come, and the configuration CSRs. -/

/-- `g` updates fields that a running command does not read and that its ends and draws do not write. -/
structure Unread (g : State → State) : Prop where
  engine : ∀ s, (g s).engine = s.engine
  ctx : ∀ s, (g s).ctx = s.ctx
  attempts : ∀ s, (g s).attempts = s.attempts
  p : ∀ s, (g s).p = s.p
  f : ∀ s, (g s).f = s.f
  par : ∀ s, (g s).par = s.par
  map_finishValue : ∀ rd v s, g (finishValue rd v s) = finishValue rd v (g s)
  map_finishBool : ∀ b s, g (finishBool b s) = finishBool b (g s)
  map_raise : ∀ flt s, g (raise flt s) = raise flt (g s)
  map_placeDraw : ∀ w s, g (placeDraw w s) = placeDraw w (g s)
  map_countAttempt : ∀ s, g (countAttempt s) = countAttempt (g s)

theorem unread_with_inputs (l : List Input) : Unread fun s => { s with inputs := l } := by
  constructor <;> intros <;> rfl

theorem unread_reconfigured (rounds limit bits : Word) (predctl fcnt : BitVec 4) (sieveEn : Bool) :
    Unread (reconfigured rounds limit bits predctl fcnt sieveEn) := by
  constructor <;> intros <;> rfl

namespace Unread

variable {g : State → State} (h : Unread g)
include h

theorem src1 (s : State) : (g s).src1 = s.src1 := congrArg Ctx.src1 (h.ctx s)
theorem src2 (s : State) : (g s).src2 = s.src2 := congrArg Ctx.src2 (h.ctx s)
theorem src3 (s : State) : (g s).src3 = s.src3 := congrArg Ctx.src3 (h.ctx s)
theorem width (s : State) : (g s).width = s.width := congrArg Params.width (h.par s)

theorem map_raiseParam (cause : ParamCause) (s : State) : g (raiseParam cause s) = raiseParam cause (g s) :=
  h.map_raise _ s

theorem factors (s : State) : (g s).factors = s.factors := by simp only [State.factors, h.f, h.ctx]

theorem pred (s : State) (c : Nat) : (g s).pred c = s.pred c := by
  simp only [State.pred, State.pe, State.po, State.pg, State.pf, h.p, h.ctx]

theorem isGen (mode : Mode) (a p : Nat) (s : State) : isGen mode a p (g s) = isGen mode a p s := by
  simp only [Machine.isGen, groupTest, h.factors]

theorem checkGroup (mode : Mode) (p : Nat) (s : State) : checkGroup mode p (g s) = checkGroup mode p s := by
  simp only [Machine.checkGroup, checkFactors, h.ctx, h.factors]

theorem rangeAnswer (lo hi v : Nat) (s use : State) :
    rangeAnswer lo hi v (g s) (g use) = g (rangeAnswer lo hi v s use) := by
  simp only [Machine.rangeAnswer, apply_ite g, h.map_raise]

theorem mrtestRound (n left a : Nat) (s : State) : mrtestRound n left a (g s) = g (mrtestRound n left a s) := by
  simp only [Machine.mrtestRound, apply_ite g, h.map_finishBool, h.map_placeDraw, h.map_countAttempt]

theorem primegenAttempt (rd : Reg) (len : Nat) (s : State) :
    primegenAttempt rd len (g s) = g (primegenAttempt rd len s) := by
  simp only [Machine.primegenAttempt, apply_ite g, h.attempts, h.ctx, h.map_placeDraw, h.map_countAttempt, h.map_raise]

theorem primegenJudge (rd : Reg) (len c : Nat) (s : State) :
    primegenJudge rd len c (g s) = g (primegenJudge rd len c s) := by
  simp only [Machine.primegenJudge, apply_ite g, h.pred, h.map_finishValue, h.primegenAttempt]

theorem primegenTest (rd : Reg) (len c : Nat) (s : State) :
    primegenTest rd len c (g s) = g (primegenTest rd len c s) := by
  unfold Machine.primegenTest
  split
  · exact h.primegenJudge rd len c s
  · exact h.primegenAttempt rd len s
  · rw [h.ctx, h.map_placeDraw]

theorem primegenCandidate (rd : Reg) (len v : Nat) (s : State) :
    primegenCandidate rd len v (g s) = g (primegenCandidate rd len v s) := by
  simp only [Machine.primegenCandidate, primegenFilter, apply_ite g, h.ctx, h.par, h.primegenAttempt, h.primegenTest]

theorem primegenRound (rd : Reg) (len c left a : Nat) (s : State) :
    primegenRound rd len c left a (g s) = g (primegenRound rd len c left a s) := by
  simp only [Machine.primegenRound, apply_ite g, h.primegenJudge, h.map_placeDraw, h.primegenAttempt]

theorem genfindAttempt (mode : Mode) (rd : Reg) (p : Nat) (s : State) :
    genfindAttempt mode rd p (g s) = g (genfindAttempt mode rd p s) := by
  simp only [Machine.genfindAttempt, apply_ite g, h.attempts, h.ctx, h.map_placeDraw, h.map_countAttempt, h.map_raise]

theorem genfindTry (mode : Mode) (rd : Reg) (p a : Nat) (s : State) :
    genfindTry mode rd p a (g s) = g (genfindTry mode rd p a s) := by
  simp only [Machine.genfindTry, apply_ite g, h.isGen, h.map_finishValue, h.genfindAttempt]

/-- The engine does with an answer what it does without the update. -/
theorem resume (w : Wait) (v : Nat) (s : State) : resume w v (g s) = g (resume w v s) := by
  cases w with
  | randodd rd len => exact (h.map_finishValue ..).symm
  | mrtest n left =>
    simp only [Machine.resume, mrtestAnswer, h.mrtestRound, h.rangeAnswer]
  | primegenCandidate rd len => exact h.primegenCandidate rd len v s
  | primegenBase rd len c left =>
    simp only [Machine.resume, primegenBase, h.primegenRound, h.rangeAnswer]
  | genfind mode rd p =>
    simp only [Machine.resume, genfindAnswer, h.genfindTry, h.rangeAnswer]

theorem mrtestStart (s : State) : mrtestStart (g s) = g (mrtestStart s) := by
  unfold Machine.mrtestStart
  rw [h.ctx, h.src1]
  split_ifs
  · exact (h.map_raiseParam ..).symm
  · split
    · exact (h.map_finishBool ..).symm
    · exact (h.map_placeDraw ..).symm

theorem randoddStart (rd : Reg) (s : State) : randoddStart rd (g s) = g (randoddStart rd s) := by
  simp only [Machine.randoddStart, apply_ite g, h.ctx, h.width, h.map_raiseParam, h.map_placeDraw]

theorem primegenStart (rd : Reg) (s : State) : primegenStart rd (g s) = g (primegenStart rd s) := by
  simp only [Machine.primegenStart, apply_ite g, h.ctx, h.src1, h.map_raiseParam, h.primegenAttempt]

theorem genfindStart (mode : Mode) (rd : Reg) (s : State) :
    genfindStart mode rd (g s) = g (genfindStart mode rd s) := by
  unfold Machine.genfindStart
  rw [h.src3, h.checkGroup]
  split
  · exact (h.map_raiseParam ..).symm
  · exact h.genfindAttempt ..

theorem isgenRun (mode : Mode) (s : State) : isgenRun mode (g s) = g (isgenRun mode s) := by
  unfold Machine.isgenRun
  rw [h.src3, h.checkGroup]
  split
  · exact (h.map_raiseParam ..).symm
  · rw [h.src1, h.isGen, h.map_finishBool]

/-- A command starts as it starts without the update. -/
theorem startOf (i : Instr) (s : State) : startOf i (g s) = g (startOf i s) := by
  cases i with
  | modmul | modexp =>
    simp only [Machine.startOf, nextOr, exec, execModmul, execModexp, apply_ite g, h.src1, h.src2, h.src3,
      h.map_raiseParam, h.map_finishValue]
  | montmul | montr2 =>
    simp only [Machine.startOf, nextOr, exec, execMontmul, execMontr2, h.src1, h.src2, h.src3, h.width]
    split
    · exact (h.map_raiseParam ..).symm
    · exact (h.map_finishValue ..).symm
  | modinv =>
    simp only [Machine.startOf, nextOr, exec, execModinv, apply_ite g, h.src1, h.src3, h.map_raiseParam,
      h.map_raise, h.map_finishValue]
  | gcd => simp only [Machine.startOf, nextOr, exec, execGcd, h.src1, h.src2, h.map_finishValue]
  | trialdiv => simp only [Machine.startOf, nextOr, exec, execTrialdiv, h.src1, h.par, h.map_finishBool]
  | isgen => simp only [Machine.startOf, nextOr, exec, execIsgen, apply_ite g, h.map_raise, h.isgenRun]
  | mrtest => exact h.mrtestStart s
  | randodd rd => exact h.randoddStart rd s
  | primegen rd => exact h.primegenStart rd s
  | genfind mode rd => simp only [startOf_genfind, apply_ite g, h.map_raise, h.genfindStart]

theorem portWord (s : State) (v : Nat) : portWord (g s) v = portWord s v := by
  simp only [Machine.portWord, h.width]

/-- The answers are taken as without the update; `g'` is what is left of it once the inputs are replaced. -/
theorem serve {g' : State → State} (hinputs : ∀ s l, { g s with inputs := l } = g' { s with inputs := l }) (s : State)
    (l : List Input) : serve (g s) l = g' (serve s l) := by
  induction l generalizing s with
  | nil => exact hinputs s []
  | cons inp rest ih =>
    by_cases hw : ∃ w, s.engine = .waiting w
    · obtain ⟨w, hw⟩ := hw
      cases inp with
      | answer v =>
        rw [serve_answer ((h.engine s).trans hw), serve_answer hw, h.portWord, h.resume, ih]
      | tick | access | lateAnswer | sameCycle | rstN => exact hinputs s _
    · have hidle : ∀ w, s.engine ≠ .waiting w := fun w e => hw ⟨w, e⟩
      rw [serve_of_not_waiting (by simpa only [h.engine] using hidle), serve_of_not_waiting hidle, hinputs]

end Unread

end Sys2Proof.Machine

namespace Sys2Proof.Machine

/-! ## Answers at once and answers later (R48, R80) -/

section
variable {s t u : State}

theorem resume_with_inputs (w : Wait) (v : Nat) (s : State) (l : List Input) :
    resume w v { s with inputs := l } = { resume w v s with inputs := l } :=
  (unread_with_inputs l).resume w v s

theorem startOf_with_inputs (i : Instr) (s : State) (l : List Input) :
    startOf i { s with inputs := l } = { startOf i s with inputs := l } :=
  (unread_with_inputs l).startOf i s

/-- The answers a command takes are those it is given, whatever else is to come. -/
theorem serve_with_inputs (s : State) (k l : List Input) : serve { s with inputs := k } l = serve s l :=
  (unread_with_inputs k).serve (g' := id) (fun _ _ => rfl) s l

/-- Without an answer next, no draw is served. -/
theorem serve_of_no_answer {l : List Input} (h : ∀ v rest, l ≠ .answer v :: rest) (s : State) :
    serve s l = { s with inputs := l } := by
  match l with
  | [] => rfl
  | .answer v :: rest => exact absurd rfl (h v rest)
  | .tick :: rest => rfl
  | .access a :: rest => rfl
  | .lateAnswer v :: rest => rfl
  | .sameCycle a ans :: rest => rfl
  | .rstN level :: rest => rfl

/-- A step at a draw with an answer next takes it and those that follow. -/
theorem step_answer_of_waiting {w : Wait} (hw : s.engine = .waiting w) (v : Nat) (rest : List Input) :
    step { s with inputs := .answer v :: rest } = .next (serve s (.answer v :: rest)) := by
  have hserve : takeAnswer v { s with inputs := rest } = serve s (.answer v :: rest) := by
    rw [takeAnswer_of_waiting (s := { s with inputs := rest }) hw, resume_with_inputs, serve_with_inputs,
      serve_answer hw]
    rfl
  rw [← hserve]
  rfl

/-- A command that has moved to `u` and is then given the inputs `l` does what it does when they come as steps of their
own. -/
theorem MovesTo.serve_eq_step {rd? : Option Reg} (h : MovesTo rd? s u) (l : List Input) :
    (∀ v rest, u.busy = true → l = .answer v :: rest → .next (Machine.serve u l) = step { u with inputs := l }) ∧
      (u.busy = false ∨ (∀ v rest, l ≠ .answer v :: rest) → Machine.serve u l = { u with inputs := l }) := by
  refine ⟨?_, ?_⟩
  · rintro v rest hb rfl
    obtain ⟨w, hw⟩ := h.waiting_of_busy hb
    exact (step_answer_of_waiting hw v rest).symm
  · rintro (hended | hnone)
    · exact serve_of_not_waiting (engine_ne_waiting_of_not_busy hended) l
    · exact serve_of_no_answer hnone u

/-! ## Configuration written after acceptance (R47, R293) -/

theorem takeAnswer_reconfigured (rounds limit bits : Word) (predctl fcnt : BitVec 4) (sieveEn : Bool) (v : Nat)
    (s : State) :
    takeAnswer v (reconfigured rounds limit bits predctl fcnt sieveEn s) =
      reconfigured rounds limit bits predctl fcnt sieveEn (takeAnswer v s) := by
  have hg := unread_reconfigured rounds limit bits predctl fcnt sieveEn
  by_cases hw : ∃ w, s.engine = .waiting w
  · obtain ⟨w, hw⟩ := hw
    rw [takeAnswer_of_waiting hw, takeAnswer_of_waiting ((hg.engine s).trans hw), hg.portWord, hg.resume]
    exact hg.serve (fun _ _ => rfl) (resume w (portWord s v) s) s.inputs
  · have hidle : ∀ w, s.engine ≠ .waiting w := fun w e => hw ⟨w, e⟩
    rw [takeAnswer_of_not_waiting hidle, takeAnswer_of_not_waiting (by simpa only [hg.engine] using hidle)]

end

/-! ## `ATTEMPTS` does not fall (R41, R302)

Each count is below a bound of 32 bits, the latched `LIMIT` or the latched `ROUNDS`, so it does not wrap. -/

section
variable {s t : State}

theorem attempts_le_countAttempt {k : Nat} (h : s.attempts.toNat < k) (hk : k < 2 ^ 32) :
    s.attempts.toNat ≤ (countAttempt s).attempts.toNat := by
  rw [countAttempt_attempts, toNat_add_one_of_lt h hk]
  exact Nat.le_succ _

theorem attempts_le_rangeAnswer {lo hi v : Nat} {use : State} (h : s.attempts.toNat ≤ use.attempts.toNat) :
    s.attempts.toNat ≤ (rangeAnswer lo hi v s use).attempts.toNat := by
  unfold rangeAnswer
  split_ifs
  · exact h
  · exact le_rfl

theorem attempts_le_mrtestRound {n left : Nat} (hw : (Wait.mrtest n left).Sound s) (a : Nat) :
    s.attempts.toNat ≤ (mrtestRound n left a s).attempts.toNat := by
  obtain ⟨-, -, -, hpos, hsum⟩ := hw
  have hcount := attempts_le_countAttempt (show s.attempts.toNat < s.ctx.rounds.toNat by omega) s.ctx.rounds.isLt
  unfold mrtestRound
  split_ifs
  · exact hcount
  · exact hcount
  · exact hcount

theorem attempts_le_primegenAttempt (rd : Reg) (len : Nat) (s : State) :
    s.attempts.toNat ≤ (primegenAttempt rd len s).attempts.toNat := by
  unfold primegenAttempt
  split_ifs with hlimit
  · exact attempts_le_countAttempt hlimit s.ctx.limit.isLt
  · exact le_rfl

theorem attempts_le_primegenJudge (rd : Reg) (len c : Nat) (s : State) :
    s.attempts.toNat ≤ (primegenJudge rd len c s).attempts.toNat := by
  unfold primegenJudge
  split_ifs
  · exact le_rfl
  · exact attempts_le_primegenAttempt ..

theorem attempts_le_primegenTest (rd : Reg) (len c : Nat) (s : State) :
    s.attempts.toNat ≤ (primegenTest rd len c s).attempts.toNat := by
  unfold primegenTest
  split
  · exact attempts_le_primegenJudge ..
  · exact attempts_le_primegenAttempt ..
  · exact le_rfl

theorem attempts_le_primegenCandidate (rd : Reg) (len v : Nat) (s : State) :
    s.attempts.toNat ≤ (primegenCandidate rd len v s).attempts.toNat := by
  unfold primegenCandidate primegenFilter
  split_ifs
  · exact attempts_le_primegenAttempt ..
  · exact attempts_le_primegenTest ..

theorem attempts_le_primegenRound (rd : Reg) (len c left a : Nat) (s : State) :
    s.attempts.toNat ≤ (primegenRound rd len c left a s).attempts.toNat := by
  unfold primegenRound
  split_ifs
  · exact attempts_le_primegenJudge ..
  · exact le_rfl
  · exact attempts_le_primegenAttempt ..

theorem attempts_le_genfindTry (mode : Mode) (rd : Reg) (p g : Nat) (s : State) :
    s.attempts.toNat ≤ (genfindTry mode rd p g s).attempts.toNat := by
  unfold genfindTry genfindAttempt
  split_ifs with hgen hlimit
  · exact le_rfl
  · exact attempts_le_countAttempt hlimit s.ctx.limit.isLt
  · exact le_rfl

/-- No answer to a draw its command's rule makes lowers the count. -/
theorem attempts_le_resume {w : Wait} (hw : w.Sound s) (v : Nat) :
    s.attempts.toNat ≤ (resume w v s).attempts.toNat := by
  cases w with
  | randodd rd len => exact le_rfl
  | mrtest n left => exact attempts_le_rangeAnswer (attempts_le_mrtestRound hw v)
  | primegenCandidate rd len => exact attempts_le_primegenCandidate rd len v s
  | primegenBase rd len c left => exact attempts_le_rangeAnswer (attempts_le_primegenRound rd len c left v s)
  | genfind mode rd p => exact attempts_le_rangeAnswer (attempts_le_genfindTry mode rd p v s)

theorem attempts_le_serve (h : s.Inv) (l : List Input) : s.attempts.toNat ≤ (serve s l).attempts.toNat := by
  refine (serve_induction (P := fun u => u.Inv ∧ s.attempts.toNat ≤ u.attempts.toNat) ?_ ?_ s l ⟨h, le_rfl⟩).2
  · rintro u w v ⟨hinv, hle⟩ hw
    exact ⟨resume_keeps_inv hinv hw _, hle.trans (attempts_le_resume (hinv.drawSound w hw) _)⟩
  · rintro u l ⟨hinv, hle⟩
    exact ⟨hinv.with_inputs l, hle⟩

theorem attempts_le_takeAnswer (h : s.Inv) (v : Nat) : s.attempts.toNat ≤ (takeAnswer v s).attempts.toNat := by
  by_cases hw : ∃ w, s.engine = .waiting w
  · obtain ⟨w, hw⟩ := hw
    rw [takeAnswer_of_waiting hw]
    exact (attempts_le_resume (h.drawSound w hw) _).trans (attempts_le_serve (resume_keeps_inv h hw _) _)
  · rw [takeAnswer_of_not_waiting fun w e => hw ⟨w, e⟩]

/-- A command begins with the count at 0 (R46), and each answer it then takes counts up. -/
theorem State.EngineMoves.attempts_le (h : s.EngineMoves t) (hinv : s.Inv) : s.attempts.toNat ≤ t.attempts.toNat := by
  obtain htick | ⟨v, rfl⟩ := h
  · by_cases hacc : s.engine = .accepted
    · simp [hinv.started hacc]
    · rw [tick_of_not_accepted hacc] at htick
      cases htick
      exact le_rfl
  · exact attempts_le_takeAnswer hinv v

/-- While BUSY lasts, an input lowers the count only by a reset, which ends BUSY. -/
theorem attempts_le_of_handle {inp : Input} (hinv : s.Inv) (hb : s.busy = true) (h : handle inp s = .next t)
    (ht : t.busy = true) : s.attempts.toNat ≤ t.attempts.toNat := by
  cases inp with
  | tick => exact State.EngineMoves.attempts_le (.inl h) hinv
  | answer v => cases h; exact attempts_le_takeAnswer hinv v
  | lateAnswer v => cases h; exact le_rfl
  | access a =>
    obtain hsame | ⟨-, rfl⟩ := busAccess_of_busy hb h
    · rw [hsame.attempts]
    · cases ht
  | sameCycle a ans =>
    obtain ⟨u, hu, hmove⟩ := accessWithStep_cases h
    obtain hsame | ⟨-, rfl⟩ := busAccess_of_busy hb hu
    · rw [← hsame.attempts]
      exact hmove.attempts_le (busAccess_keeps_inv hinv hu)
    · rw [hmove.eq_of_not_busy rfl] at ht
      cases ht
  | rstN level =>
    cases h
    obtain hsame | hreset := driveResetPin_cases level s
    · rw [hsame]
    · rw [hreset] at ht
      cases ht

end

end Sys2Proof.Machine

namespace Sys2Proof.Proofs

open Sys2Proof.Machine

/-- Settles O36: a command stands where its start leads, and a waiting one where its answer leads; the inputs to come
are read by neither. -/
theorem answersAtOnceOrLaterAgree : Obligations.AnswersAtOnceOrLaterAgree := by
  unfold Obligations.AnswersAtOnceOrLaterAgree
  constructor
  · intro i s t ht
    rw [exec_eq_serve, startOf_with_inputs, serve_with_inputs, serve_nil] at ht
    cases ht
    obtain ⟨hstep, hstop⟩ := (movesTo_startOf i s).serve_eq_step s.inputs
    rw [exec_eq_serve]
    exact ⟨hstep, fun h => congrArg Host.Outcome.next (hstop h)⟩
  · intro w s t v rest hw ht
    rw [step_answer_of_waiting hw, serve_answer hw, serve_nil] at ht
    cases ht
    obtain ⟨hstep, hstop⟩ := (movesTo_resume w (portWord s v) s).serve_eq_step rest
    rw [step_answer_of_waiting hw, serve_answer hw]
    exact ⟨hstep, fun h => congrArg Host.Outcome.next (hstop h)⟩

/-- Settles O57: the configuration is among what a running command does not read. -/
theorem lateConfigurationHasNoEffect : Obligations.LateConfigurationHasNoEffect := by
  unfold Obligations.LateConfigurationHasNoEffect
  intro rounds limit bits predctl fcnt sieveEn s
  refine ⟨fun i t ht => ?_, fun v => takeAnswer_reconfigured rounds limit bits predctl fcnt sieveEn v s⟩
  have hg := unread_reconfigured rounds limit bits predctl fcnt sieveEn
  rw [exec_eq_serve] at ht ⊢
  cases ht
  rw [hg.startOf]
  exact congrArg Host.Outcome.next (hg.serve (fun _ _ => rfl) (startOf i s) s.inputs)

/-- Settles O59: an answer counts up, a command begins at 0, and nothing else moves the count but acceptance and
reset. -/
theorem attemptsNeverFall : Obligations.AttemptsNeverFall := by
  unfold Obligations.AttemptsNeverFall
  intro s t hinv hb h ht
  cases hin : s.inputs with
  | nil =>
    rw [step_of_no_input hin] at h
    exact State.EngineMoves.attempts_le (.inl h) hinv
  | cons inp rest =>
    rw [step_of_input hin] at h
    exact attempts_le_of_handle (s := { s with inputs := rest }) (hinv.with_inputs rest) hb h ht

end Sys2Proof.Proofs

namespace Sys2Proof.Machine

/-! ## Accesses that get a bus error

An access is errored when its target gives neither a read nor a write an answer: no target at all (R67, R68, R70), or an
operand window while BUSY (R72). -/

section
variable {s t : State} {a : Access} {tgt : Target} {ww off : Nat} {d w : Word}

theorem busAccess_errored (hr : s.rstLow = false)
    (hrefused : ∀ tgt, a.target s.par.ww = some tgt → targetRead tgt s = none ∧ ∀ d, targetWrite tgt d s = none) :
    busAccess a s = .next (errored a s) := by
  have hread : (a.target s.par.ww).bind (fun tgt => targetRead tgt s) = none :=
    Option.bind_eq_none_iff.2 fun tgt htgt => (hrefused tgt htgt).1
  have hwrite (d : Word) : (a.target s.par.ww).bind (fun tgt => targetWrite tgt d s) = none :=
    Option.bind_eq_none_iff.2 fun tgt htgt => (hrefused tgt htgt).2 d
  cases ha : a.write with
  | none => simp [busAccess, hr, ha, busRead, hread, errored]
  | some d => simp [busAccess, hr, ha, busWrite, hwrite, errored]

theorem busAccess_errored_of_no_target (hr : s.rstLow = false) (ht : a.target s.par.ww = none) :
    busAccess a s = .next (errored a s) :=
  busAccess_errored hr (by simp [ht])

/-- An access that is misaligned or not exactly 32 bits wide has no target (R67, R68). -/
theorem Access.target_of_irregular (h : a.offset % 4 ≠ 0 ∨ a.lanes ≠ 15#4 ∨ a.burst = true) : a.target ww = none := by
  refine if_neg ?_
  rintro ⟨halign, hlanes, hburst⟩
  simp [halign, hlanes, hburst] at h

theorem Access.target_of_unmapped (h : targetOf ww a.offset = none) : a.target ww = none := by
  simp [Access.target, h]

/-- No CSR stands at 0x003C or above, below the operand windows (R61). -/
theorem targetOf_above_csrs (hlo : 0x003C ≤ off) (hhi : off ≤ 0x0FFF) : targetOf ww off = none := by
  have hend : csrMap[off / 4]? = none := List.getElem?_eq_none (by simp only [csrMap, List.length]; omega)
  rw [targetOf, if_pos (by omega), hend, Option.map_none]

/-- Only the first `4 * WW` bytes of a slot are mapped (R61). -/
theorem targetOf_slot_tail (hlo : 0x1000 ≤ off) (htail : 4 * ww ≤ off % 0x400) : targetOf ww off = none := by
  rw [targetOf, if_neg (by omega), if_pos (by omega)]

/-- Nothing stands above the operand windows (R60, R61). -/
theorem targetOf_above_window (hlo : 0x8000 ≤ off) : targetOf ww off = none := by
  rw [targetOf, if_neg (by omega), if_neg (by omega : ¬ off < 0x5000), if_neg (by omega : ¬ off < 0x6000),
    if_neg (by omega : ¬ off < 0x8000), ite_self]

theorem Csr.offset_lt (c : Csr) : c.offset < 0x003C := by
  cases c <;> decide

/-- While BUSY a target that is no CSR answers neither a read nor a write (R72). -/
theorem targetRead_targetWrite_of_busy (hb : s.busy = true) (htgt : ∀ c, tgt ≠ .csr c) :
    targetRead tgt s = none ∧ ∀ d, targetWrite tgt d s = none := by
  cases tgt with
  | csr c => exact absurd rfl (htgt c)
  | x i j | p k j | f k j => exact ⟨if_pos hb, fun d => if_pos hb⟩

theorem busAccess_errored_of_busy (hr : s.rstLow = false) (hb : s.busy = true) (hoff : 0x1000 ≤ a.offset) :
    busAccess a s = .next (errored a s) := by
  refine busAccess_errored hr fun tgt htgt => targetRead_targetWrite_of_busy hb ?_
  rintro c rfl
  have hcsr := Access.offset_of_target_csr htgt
  have hlt := c.offset_lt
  omega

/-! ## Words of the operand registers

What a mapped word answers, and `wordOf` and `withWord` bit by bit and as parts of the register's value (R62, R65). -/

theorem busAccess_memRead (hr : s.rstLow = false) (halign : off % 4 = 0) (ht : targetOf s.par.ww off = some tgt)
    (hread : targetRead tgt s = some w) : busAccess (memRead off) s = .next { s with resp := some (.data w) } := by
  simp [busAccess, hr, memRead, busRead, Access.target, halign, ht, hread]

theorem busAccess_memWrite (hr : s.rstLow = false) (halign : off % 4 = 0) (ht : targetOf s.par.ww off = some tgt)
    (hwrite : targetWrite tgt d s = some t) :
    busAccess (memWrite off d) s = .next { t with resp := some .written } := by
  simp [busAccess, hr, memWrite, busWrite, Access.target, halign, ht, hwrite]

theorem getLsbD_wordOf (v j : Nat) {k : Nat} (hk : k < 32) : (wordOf v j).getLsbD k = v.testBit (32 * j + k) := by
  rw [wordOf, BitVec.getLsbD_ofNat, decide_eq_true hk, Bool.true_and, Nat.testBit_div_two_pow, Nat.add_comm]

theorem testBit_withWord (v j : Nat) (d : Word) (b : Nat) :
    (withWord v j d).testBit b = if 32 * j ≤ b ∧ b < 32 * j + 32 then d.getLsbD (b - 32 * j) else v.testBit b := by
  have hlow : v % 2 ^ (32 * j) < 2 ^ (32 * j) := Nat.mod_lt _ (Nat.two_pow_pos _)
  have hsplit : withWord v j d =
      2 ^ (32 * j) * (2 ^ 32 * (v / 2 ^ (32 * (j + 1))) + d.toNat) + v % 2 ^ (32 * j) := by
    rw [withWord, Nat.mul_succ, Nat.pow_add]
    ring
  rw [hsplit, Nat.testBit_two_pow_mul_add _ hlow]
  split_ifs with hbelow hword hword
  · omega
  · rw [Nat.testBit_mod_two_pow, decide_eq_true hbelow, Bool.true_and]
  · rw [Nat.testBit_two_pow_mul_add _ d.isLt, if_pos (by omega), BitVec.testBit_toNat]
  · rw [Nat.testBit_two_pow_mul_add _ d.isLt, if_neg (by omega), Nat.testBit_div_two_pow]
    congr 1
    omega

/-- The words below word `n` make up the value modulo `2^(32 n)`. -/
theorem sum_wordOf_eq_mod (v n : Nat) :
    ∑ j ∈ Finset.range n, (wordOf v j).toNat * 2 ^ (32 * j) = v % 2 ^ (32 * n) := by
  induction n with
  | zero => simp [Nat.mod_one]
  | succ n ih =>
    have hword : (wordOf v n).toNat = v / 2 ^ (32 * n) % 2 ^ 32 := BitVec.toNat_ofNat ..
    rw [Finset.sum_range_succ, ih, hword, Nat.mul_comm (_ % _), Nat.pow_mul, Nat.pow_mul,
      Nat.mod_pow_succ (b := 2 ^ 32)]

/-- A mapped word of a register with value `v`, bit by bit: what a read of it returns, and the value a write leaves;
`store` puts a value in the register. -/
theorem register_word_access {v j : Nat} {store : Nat → State} (hr : s.rstLow = false) (halign : off % 4 = 0)
    (ht : targetOf s.par.ww off = some tgt) (hread : targetRead tgt s = some (wordOf v j))
    (hwrite : targetWrite tgt d s = some (store (withWord v j d))) :
    (∃ r : Word, busAccess (memRead off) s = .next { s with resp := some (.data r) } ∧
      ∀ k, k < 32 → r.getLsbD k = v.testBit (32 * j + k)) ∧
    ∃ v', busAccess (memWrite off d) s = .next { store v' with resp := some .written } ∧
      ∀ b, v'.testBit b = if 32 * j ≤ b ∧ b < 32 * j + 32 then d.getLsbD (b - 32 * j) else v.testBit b :=
  ⟨⟨wordOf v j, busAccess_memRead hr halign ht hread, fun _ hk => getLsbD_wordOf v j hk⟩,
    withWord v j d, busAccess_memWrite hr halign ht hwrite, testBit_withWord v j d⟩

/-- A register of `W` bits is the sum of the words its slot's reads return. -/
theorem exists_words_of_slot {v : Nat} {slot : Nat → Nat} {tgt : Nat → Target} (hr : s.rstLow = false)
    (hv : v < s.par.radix) (halign : ∀ j, slot j % 4 = 0)
    (ht : ∀ j, j < s.par.ww → targetOf s.par.ww (slot j) = some (tgt j))
    (hread : ∀ j, targetRead (tgt j) s = some (wordOf v j)) :
    ∃ word : Nat → Word,
      (∀ j, j < s.par.ww → busAccess (memRead (slot j)) s = .next { s with resp := some (.data (word j)) }) ∧
      v = ∑ j ∈ Finset.range s.par.ww, (word j).toNat * 2 ^ (32 * j) := by
  refine ⟨wordOf v, fun j hj => busAccess_memRead hr (halign j) (ht j hj) (hread j), ?_⟩
  rw [sum_wordOf_eq_mod]
  exact (Nat.mod_eq_of_lt hv).symm

theorem xOffset_mod_four (i j : Nat) : xOffset i j % 4 = 0 := by unfold xOffset; omega

theorem pOffset_mod_four (k j : Nat) : pOffset k j % 4 = 0 := by unfold pOffset; omega

theorem fOffset_mod_four (k j : Nat) : fOffset k j % 4 = 0 := by unfold fOffset; omega

end

end Sys2Proof.Machine

namespace Sys2Proof.Proofs

open Sys2Proof.Machine

/-- Settles O37: at 0x1000 and above no target is a CSR, and while BUSY no other target answers. -/
theorem operandWindowsLocked : Obligations.OperandWindowsLocked := by
  unfold Obligations.OperandWindowsLocked
  intro s a rest hr hb hlo _ hin
  refine ⟨?_, fun cw => rfl, rfl, fun flt => rfl⟩
  rw [step_of_input hin]
  exact busAccess_errored_of_busy hr hb hlo

/-- Settles O38: such an access has no target, whatever its offset. -/
theorem onlyAlignedWordAccesses : Obligations.OnlyAlignedWordAccesses := by
  unfold Obligations.OnlyAlignedWordAccesses
  intro s a rest hr hirregular hin
  rw [step_of_input hin]
  exact busAccess_errored_of_no_target hr (Access.target_of_irregular hirregular)

/-- Settles O39: each of the three ranges leads nowhere. -/
theorem unmappedOffsetsError : Obligations.UnmappedOffsetsError := by
  unfold Obligations.UnmappedOffsetsError
  intro s a rest hr hoff hin
  rw [step_of_input hin]
  refine busAccess_errored_of_no_target hr (Access.target_of_unmapped ?_)
  obtain ⟨hlo, hhi⟩ | ⟨hlo, htail⟩ | habove := hoff
  · exact targetOf_above_csrs hlo hhi
  · exact targetOf_slot_tail hlo htail
  · exact targetOf_above_window habove

/-- Settles O44: the offset leads to word `j` of the register, which reads as `wordOf` and is written by `withWord`. -/
theorem windowWordsAreTheRegisters : Obligations.WindowWordsAreTheRegisters := by
  unfold Obligations.WindowWordsAreTheRegisters
  intro s d j hr hb hj
  have hle := (ww_bounds s.par).2
  have hfree : ¬ s.busy = true := Bool.eq_false_iff.1 hb
  refine ⟨fun i => ?_, fun k => ?_, fun k => ?_⟩
  · exact register_word_access (store := fun v => { s with x := s.x.set i v }) hr (xOffset_mod_four i j)
      (targetOf_xOffset i hj hle) (if_neg hfree) (if_neg hfree)
  · exact register_word_access (store := fun v => { s with p := s.p.set k v }) hr (pOffset_mod_four k j)
      (targetOf_pOffset k hj hle) (if_neg hfree) (if_neg hfree)
  · exact register_word_access (store := fun v => { s with f := s.f.set k v }) hr (fOffset_mod_four k j)
      (targetOf_fOffset k hj hle) (if_neg hfree) (if_neg hfree)

/-- Settles O45: the `WW` words of a slot make up the value modulo `2^W`, which is the value. -/
theorem registerIsTheSumOfItsWords : Obligations.RegisterIsTheSumOfItsWords := by
  unfold Obligations.RegisterIsTheSumOfItsWords
  intro s hr hb hfit
  have hle := (ww_bounds s.par).2
  have hfree : ¬ s.busy = true := Bool.eq_false_iff.1 hb
  exact
    ⟨fun i => exists_words_of_slot hr (hfit.x i) (xOffset_mod_four i) (fun j hj => targetOf_xOffset i hj hle)
      fun j => if_neg hfree,
    fun k => exists_words_of_slot hr (hfit.p k) (pOffset_mod_four k) (fun j hj => targetOf_pOffset k hj hle)
      fun j => if_neg hfree,
    fun k => exists_words_of_slot hr (hfit.f k) (fOffset_mod_four k) (fun j hj => targetOf_fOffset k hj hle)
      fun j => if_neg hfree⟩

/-- Settles O7: the write reaches `CMD`, which takes no word while BUSY. -/
theorem cmdWriteWhileBusyIsRefused : Obligations.CmdWriteWhileBusyIsRefused := by
  unfold Obligations.CmdWriteWhileBusyIsRefused
  intro s cw rest hr hb hin
  rw [step_of_input hin]
  exact busAccess_memWrite_csr_refused (s := { s with inputs := rest }) (c := .cmd) hr (if_pos hb)

/-- Settles O40: each offset of the list is that of a CSR that takes no write. -/
theorem readOnlyCsrWriteErrors : Obligations.ReadOnlyCsrWriteErrors := by
  unfold Obligations.ReadOnlyCsrWriteErrors
  intro s off d rest hr hoff hin
  rw [step_of_input hin]
  have hrefused (c : Csr) (hc : csrWrite c d { s with inputs := rest } = none) :
      busAccess (memWrite c.offset d) { s with inputs := rest } =
        .next { s with inputs := rest, resp := some .writeError } :=
    busAccess_memWrite_csr_refused hr hc
  simp only [List.mem_cons, List.not_mem_nil, or_false] at hoff
  obtain rfl | rfl | rfl | rfl | rfl | rfl := hoff
  · exact hrefused .id rfl
  · exact hrefused .param rfl
  · exact hrefused .status rfl
  · exact hrefused .err rfl
  · exact hrefused .errInfo rfl
  · exact hrefused .attempts rfl

end Sys2Proof.Proofs

namespace Sys2Proof

/-! ## A word as its fields (R91) -/

section
open Laws
variable (fn fn' : BitVec 8) (rs3 rs3' rs2 rs2' rs1 rs1' rd rd' : Reg) (op op' : BitVec 8)

theorem exists_formatC (cw : Word) : ∃ fn rs3 rs2 rs1 rd op, cw = formatC fn rs3 rs2 rs1 rd op := by
  refine ⟨cw.extractLsb' 24 8, fieldRs3 cw, fieldRs2 cw, fieldRs1 cw, fieldRd cw, fieldOp cw, ?_⟩
  apply BitVec.eq_of_getLsbD_eq
  intro k hk
  simp only [getLsbD_formatC, fieldRs3, fieldRs2, fieldRs1, fieldRd, fieldOp, BitVec.getLsbD_extractLsb']
  split_ifs <;> grind

theorem formatC_and :
    formatC fn rs3 rs2 rs1 rd op &&& formatC fn' rs3' rs2' rs1' rd' op' =
      formatC (fn &&& fn') (rs3 &&& rs3') (rs2 &&& rs2') (rs1 &&& rs1') (rd &&& rd') (op &&& op') := by
  apply BitVec.eq_of_getLsbD_eq
  intro k _
  simp only [BitVec.getLsbD_and, getLsbD_formatC]
  split_ifs <;> rfl

theorem formatC_or :
    formatC fn rs3 rs2 rs1 rd op ||| formatC fn' rs3' rs2' rs1' rd' op' =
      formatC (fn ||| fn') (rs3 ||| rs3') (rs2 ||| rs2') (rs1 ||| rs1') (rd ||| rd') (op ||| op') := by
  apply BitVec.eq_of_getLsbD_eq
  intro k _
  simp only [BitVec.getLsbD_or, getLsbD_formatC]
  split_ifs <;> rfl

/-- `mode` is the low two bits of `fn`, whatever stands above it (R91). -/
theorem fieldMode_formatC_of_fn : fieldMode (formatC fn rs3 rs2 rs1 rd op) = fn.extractLsb' 0 2 := by
  ext i hi
  simp only [fieldMode, BitVec.getElem_extractLsb', getLsbD_formatC]
  split_ifs <;> first | omega | (congr 1; omega)

theorem modeFn_extractLsb' : modeFn (fn.extractLsb' 0 2) = fn &&& 3#8 := by
  revert fn
  decide

end

/-! ## The table of R94 as fields -/

/-- Every bit of a register field the command uses, none of one it does not (R92). -/
def usedBits (used : Bool) : Reg := if used then BitVec.allOnes 4 else 0#4

theorem and_usedBits (r : Reg) (used : Bool) : r &&& usedBits used = if used then r else 0#4 := by
  cases used
  · exact BitVec.and_zero
  · exact BitVec.and_allOnes

/-- The bits a row leaves free are those of the fields its command uses (R92, R94). -/
theorem Opcode.not_mask (o : Opcode) :
    ~~~ o.mask =
      formatC (if o.hasMode then 3#8 else 0#8) (usedBits (o.build 0#32).rs3?.isSome)
        (usedBits (o.build 0#32).rs2?.isSome) (usedBits (o.build 0#32).rs1?.isSome)
        (usedBits (o.build 0#32).rd?.isSome) 0#8 := by
  cases o <;> decide

theorem Opcode.matchWord_eq_formatC (o : Opcode) : o.matchWord = formatC 0#8 0#4 0#4 0#4 0#4 o.code := by
  cases o <;> rfl

/-- The encoding of the command a row reads from a word: the word's free bits, and the row's own (R91, R92, R94). -/
theorem encode_build (o : Opcode) (cw : Word) : encode (o.build cw) = cw &&& ~~~ o.mask ||| o.matchWord := by
  obtain ⟨fn, rs3, rs2, rs1, rd, op, rfl⟩ := exists_formatC cw
  rw [o.not_mask, o.matchWord_eq_formatC, formatC_and, formatC_or]
  cases o <;>
    simp [Opcode.build, encode, Opcode.hasMode, Opcode.code, Instr.rs1?, Instr.rs2?, Instr.rs3?, Instr.rd?,
      and_usedBits, fieldMode_formatC_of_fn, modeFn_extractLsb']

/-- A row reads its command back from the command's word. -/
theorem build_encode (i : Instr) : i.opcode.build (encode i) = i := by
  cases i <;> simp [Instr.opcode, Opcode.build, encode]

/-- Every command's word carries its row's opcode. -/
theorem fieldOp_encode (i : Instr) : fieldOp (encode i) = i.opcode.code := by
  cases i <;> exact Laws.fieldOp_formatC ..

theorem Opcode.matchWord_and_mask (o : Opcode) : o.matchWord &&& o.mask = o.matchWord := by
  cases o <;> decide

/-- A word that meets its row is the encoding of what the row reads from it: it has no bits but the row's and the free
ones. -/
theorem encode_build_of_mask {o : Opcode} {cw : Word} (h : cw &&& o.mask = o.matchWord) : encode (o.build cw) = cw := by
  rw [encode_build, ← h, ← BitVec.and_or_distrib_left, BitVec.or_comm, BitVec.or_not_self, BitVec.and_allOnes]

theorem encode_and_mask (i : Instr) : encode i &&& i.opcode.mask = i.opcode.matchWord := by
  have hword : encode i = encode i &&& ~~~ i.opcode.mask ||| i.opcode.matchWord := by
    rw [← encode_build, build_encode]
  rw [hword, BitVec.and_or_distrib_right, BitVec.and_assoc, BitVec.not_and_self, BitVec.ofNat_eq_ofNat,
    BitVec.and_zero, BitVec.zero_or, i.opcode.matchWord_and_mask]

/-- The condition a row adds is that of the command it reads (R94, R98). -/
theorem wellFormed_build_iff (o : Opcode) (cw : Word) :
    (o.build cw).wellFormed = true ↔ ¬ (o.hasMode = true ∧ fieldMode cw = Mode.reserved) := by
  cases o <;> simp [Opcode.build, Instr.wellFormed, Instr.modeLegal, Instr.mode?, Opcode.hasMode]

/-! ## The decoder, row by row (R95) -/

theorem opcodeOf_eq_some_iff {op : BitVec 8} {o : Opcode} : opcodeOf op = some o ↔ o.code = op := by
  constructor
  · intro h
    simpa using List.find?_some h
  · rintro rfl
    cases o <;> rfl

section
variable {cw : Word}

theorem decode_of_no_row (h : ∀ o : Opcode, o.code ≠ fieldOp cw) : decode cw = .error .unknownOpcode := by
  have hnone : opcodeOf (fieldOp cw) = none :=
    Option.eq_none_iff_forall_ne_some.2 fun o ho => h o (opcodeOf_eq_some_iff.1 ho)
  simp only [decode, hnone]

theorem decode_of_row {o : Opcode} (h : o.code = fieldOp cw) :
    decode cw =
      if cw &&& o.mask ≠ o.matchWord then .error .mustBeZero
      else if o.hasMode = true ∧ fieldMode cw = Mode.reserved then .error .reservedMode
      else .ok (o.build cw) := by
  simp only [decode, opcodeOf_eq_some_iff.2 h]

/-- The decoder's answer on a word is the one command whose encoding the word is (R92, R95). -/
theorem decode_eq_ok_iff {i : Instr} : decode cw = .ok i ↔ i.wellFormed = true ∧ encode i = cw := by
  constructor
  · intro h
    by_cases hrow : ∃ o : Opcode, o.code = fieldOp cw
    · obtain ⟨o, ho⟩ := hrow
      rw [decode_of_row ho] at h
      split_ifs at h with hmask hmode
      cases h
      exact ⟨(wellFormed_build_iff o cw).2 hmode, encode_build_of_mask (not_not.1 hmask)⟩
    · rw [decode_of_no_row (not_exists.1 hrow)] at h
      cases h
  · rintro ⟨hwf, rfl⟩
    have hmode : ¬ (i.opcode.hasMode = true ∧ fieldMode (encode i) = Mode.reserved) := by
      rwa [← wellFormed_build_iff, build_encode]
    rw [decode_of_row (fieldOp_encode i).symm, if_neg (not_not.2 (encode_and_mask i)), if_neg hmode, build_encode]

end

end Sys2Proof

namespace Sys2Proof.Machine

/-! ## Words that are no command (R95 to R97) -/

section
variable {cw : Word}

/-- The must-be-zero bits of a row are its mask above the opcode (R94). -/
theorem mem_mustBeZeroBits_iff {row : BitVec 8 × Word} :
    row ∈ mustBeZeroBits ↔ ∃ o : Opcode, (o.code, o.mask &&& 0xFFFFFF00#32) = row := by
  have htable : mustBeZeroBits = opcodeTable.map fun o => (o.code, o.mask &&& 0xFFFFFF00#32) := by decide
  have hall (o : Opcode) : o ∈ opcodeTable := by cases o <;> decide
  simp [htable, hall]

theorem and_opcode_bits (cw : Word) : cw &&& 0xFF#32 = (fieldOp cw).setWidth 32 := by
  rw [fieldOp, ← BitVec.setWidth_eq_extractLsb' (by decide)]
  exact (setWidth_setWidth_eq_and cw (k := 8) (by decide)).symm

/-- A word with a row's opcode meets the row exactly when its must-be-zero bits are 0. -/
theorem and_mask_eq_matchWord_iff {o : Opcode} (h : o.code = fieldOp cw) :
    cw &&& o.mask = o.matchWord ↔ cw &&& (o.mask &&& 0xFFFFFF00#32) = 0#32 := by
  constructor
  · intro hmask
    have habove : o.matchWord &&& 0xFFFFFF00#32 = 0#32 := by cases o <;> rfl
    rw [← BitVec.and_assoc, hmask, habove]
  · intro hzero
    have hsplit : o.mask = o.mask &&& 0xFFFFFF00#32 ||| 0xFF#32 := by cases o <;> rfl
    have hop : o.matchWord = o.code.setWidth 32 := by cases o <;> rfl
    rw [hsplit, BitVec.and_or_distrib_left, hzero, BitVec.zero_or, and_opcode_bits, ← h, hop]

theorem tick_accept_of_decode_error {why : DecodeError} (h : decode cw = .error why) (s : State) :
    tick (accept cw s) = .next (illegalEnd cw (illegalInfo why) s) := by
  rw [tick_of_accepted (accept_engine cw s)]
  simp only [runCommand, accept_ctx, latch_cw, h]
  rfl

theorem illegalInfo_cases (why : DecodeError) :
    illegalInfo why = 1#32 ∨ illegalInfo why = 2#32 ∨ illegalInfo why = 3#32 := by
  cases why <;> decide

theorem exists_decode_error (h : ∀ i : Instr, i.wellFormed = true → encode i ≠ cw) : ∃ why, decode cw = .error why := by
  cases hd : decode cw with
  | error why => exact ⟨why, rfl⟩
  | ok i =>
    obtain ⟨hwf, henc⟩ := decode_eq_ok_iff.1 hd
    exact absurd henc (h i hwf)

theorem encode_ne_of_decode_error {why : DecodeError} (h : decode cw = .error why) {i : Instr}
    (hwf : i.wellFormed = true) : encode i ≠ cw := fun henc => by
  rw [decode_eq_ok_iff.2 ⟨hwf, henc⟩] at h
  cases h

end

end Sys2Proof.Machine

namespace Sys2Proof.Proofs

open Sys2Proof.Machine

/-- Settles O1: the word meets its command's row, and the row reads the command back. -/
theorem decodeEncodeRoundTrip : Obligations.DecodeEncodeRoundTrip := fun _ hwf => decode_eq_ok_iff.2 ⟨hwf, rfl⟩

/-- Settles O2: the checks of the row leave no bit of the word but those of the fields read. -/
theorem decodedWordIsItsEncoding : Obligations.DecodedWordIsItsEncoding := fun _ _ h => decode_eq_ok_iff.1 h

/-- Settles O3: each word is the encoding of its command. -/
theorem sampleWordsDecode : Obligations.SampleWordsDecode := by
  refine ⟨?_, ?_, ?_, ?_, ?_, ?_⟩ <;> exact decode_eq_ok_iff.2 (by decide)

/-- Settles O4: each finding is the first of R95's checks that fails, row by row of the table. -/
theorem illegalWordEndsInFault : Obligations.IllegalWordEndsInFault := by
  unfold Obligations.IllegalWordEndsInFault
  have hzeros : decode 0x00000000#32 = .error .unknownOpcode := by decide
  have hones : decode 0xFFFFFFFF#32 = .error .unknownOpcode := by decide
  refine ⟨?_, ?_, ?_, ?_, ?_, ?_⟩
  · intro cw s h
    obtain ⟨why, hwhy⟩ := exists_decode_error h
    exact ⟨illegalInfo why, illegalInfo_cases why, tick_accept_of_decode_error hwhy s⟩
  · intro cw s h
    exact tick_accept_of_decode_error (decode_of_no_row fun o ho => h _ (mem_mustBeZeroBits_iff.2 ⟨o, rfl⟩) ho.symm) s
  · intro cw s row hrow hop hbits
    obtain ⟨o, rfl⟩ := mem_mustBeZeroBits_iff.1 hrow
    refine tick_accept_of_decode_error (why := .mustBeZero) ?_ s
    rw [decode_of_row hop.symm, if_pos (mt (and_mask_eq_matchWord_iff hop.symm).1 hbits)]
  · intro cw s row hrow hcode hop hbits hmode
    obtain ⟨o, rfl⟩ := mem_mustBeZeroBits_iff.1 hrow
    have hhas : o.hasMode = true := by
      revert hcode
      cases o <;> decide
    refine tick_accept_of_decode_error (why := .reservedMode) ?_ s
    rw [decode_of_row hop.symm, if_neg (not_not.2 ((and_mask_eq_matchWord_iff hop.symm).2 hbits)), if_pos ⟨hhas, hmode⟩]
  · intro i hwf
    exact ⟨encode_ne_of_decode_error hzeros hwf, encode_ne_of_decode_error hones hwf⟩
  · rintro cw s (rfl | rfl)
    · exact tick_accept_of_decode_error hzeros s
    · exact tick_accept_of_decode_error hones s

end Sys2Proof.Proofs

namespace Sys2Proof.Machine

/-! ## How many answers a command can still take (R104)

The attempts left, each with a candidate and `ROUNDS` bases, bound what PRIMEGEN draws; MRTEST draws its rounds, GENFIND
one candidate an attempt, RANDODD one word. -/

/-- The attempts a search may still begin (R201, R224). -/
def State.attemptsLeft (s : State) : Nat := s.ctx.limit.toNat - s.attempts.toNat

/-- The answers of the attempts a search may still begin, each of a candidate and its rounds. -/
def State.searchLeft (s : State) : Nat := s.attemptsLeft * (s.ctx.rounds.toNat + 1)

/-- A command that stands at the draw takes at most `k` answers more, that of the draw among them. -/
def Wait.EndsWithin (k : Nat) (s : State) : Wait → Prop
  | .randodd _ _ => 1 ≤ k
  | .mrtest _ left => 1 ≤ left ∧ left ≤ k
  | .primegenCandidate _ _ => 1 ≤ s.ctx.rounds.toNat ∧ s.searchLeft + s.ctx.rounds.toNat + 1 ≤ k
  | .primegenBase _ _ _ left => 1 ≤ s.ctx.rounds.toNat ∧ 1 ≤ left ∧ s.searchLeft + left ≤ k
  | .genfind _ _ _ => s.attemptsLeft + 1 ≤ k

/-- The command of `s` has ended, or stands at a draw and takes at most `k` answers more. -/
def State.EndsWithin (k : Nat) (s : State) : Prop :=
  (s.engine = .done ∨ s.engine = .fault) ∨ ∃ w, s.engine = .waiting w ∧ w.EndsWithin k s

theorem Wait.EndsWithin.pos {w : Wait} {k : Nat} {s : State} (h : w.EndsWithin k s) : 1 ≤ k := by
  cases w with
  | randodd => exact h
  | mrtest => exact h.1.trans h.2
  | primegenCandidate =>
    obtain ⟨-, hk⟩ := h
    omega
  | primegenBase =>
    obtain ⟨-, hleft, hk⟩ := h
    omega
  | genfind => exact (Nat.le_add_left 1 _).trans h

section
variable {k : Nat} {s : State}

/-! Each operation of a drawing command, with the answers that may follow it. -/

theorem endsWithin_finishValue (rd : Reg) (v : Nat) : (finishValue rd v s).EndsWithin k := .inl (.inl rfl)

theorem endsWithin_finishBool (b : Bool) : (finishBool b s).EndsWithin k := .inl (.inl rfl)

theorem endsWithin_raise (flt : CommandFault) : (raise flt s).EndsWithin k := .inl (.inr rfl)

theorem endsWithin_rangeAnswer {lo hi v : Nat} {use : State} (h : use.EndsWithin k) :
    (rangeAnswer lo hi v s use).EndsWithin k := by
  unfold rangeAnswer
  split_ifs
  · exact h
  · exact endsWithin_raise _

theorem attemptsLeft_countAttempt (h : s.attempts.toNat < s.ctx.limit.toNat) :
    (countAttempt s).attemptsLeft + 1 = s.attemptsLeft := by
  unfold State.attemptsLeft
  rw [countAttempt_ctx, countAttempt_attempts, toNat_add_one_of_lt h s.ctx.limit.isLt]
  omega

theorem searchLeft_countAttempt (h : s.attempts.toNat < s.ctx.limit.toNat) :
    (countAttempt s).searchLeft + s.ctx.rounds.toNat + 1 = s.searchLeft := by
  unfold State.searchLeft
  rw [← attemptsLeft_countAttempt h, countAttempt_ctx, Nat.succ_mul, Nat.add_assoc]

/-- An attempt begun takes its own answers from those the search had left. -/
theorem endsWithin_primegenAttempt (hrounds : 1 ≤ s.ctx.rounds.toNat) (hk : s.searchLeft ≤ k) (rd : Reg) (len : Nat) :
    (primegenAttempt rd len s).EndsWithin k := by
  unfold primegenAttempt
  split_ifs with hlimit
  · exact .inr ⟨_, rfl, hrounds, (searchLeft_countAttempt hlimit).trans_le hk⟩
  · exact endsWithin_raise _

theorem endsWithin_primegenJudge (hrounds : 1 ≤ s.ctx.rounds.toNat) (hk : s.searchLeft ≤ k) (rd : Reg) (len c : Nat) :
    (primegenJudge rd len c s).EndsWithin k := by
  unfold primegenJudge
  split_ifs
  · exact endsWithin_finishValue ..
  · exact endsWithin_primegenAttempt hrounds hk ..

theorem endsWithin_primegenTest (hrounds : 1 ≤ s.ctx.rounds.toNat) (hk : s.searchLeft + s.ctx.rounds.toNat ≤ k)
    (rd : Reg) (len c : Nat) : (primegenTest rd len c s).EndsWithin k := by
  have hsearch : s.searchLeft ≤ k := (Nat.le_add_right ..).trans hk
  unfold primegenTest
  split
  · exact endsWithin_primegenJudge hrounds hsearch ..
  · exact endsWithin_primegenAttempt hrounds hsearch ..
  · exact .inr ⟨_, rfl, hrounds, hrounds, hk⟩

theorem endsWithin_primegenCandidate (hrounds : 1 ≤ s.ctx.rounds.toNat) (hk : s.searchLeft + s.ctx.rounds.toNat ≤ k)
    (rd : Reg) (len v : Nat) : (primegenCandidate rd len v s).EndsWithin k := by
  unfold primegenCandidate primegenFilter
  split_ifs
  · exact endsWithin_primegenAttempt hrounds ((Nat.le_add_right ..).trans hk) ..
  · exact endsWithin_primegenTest hrounds hk ..

theorem endsWithin_primegenRound {left : Nat} (hrounds : 1 ≤ s.ctx.rounds.toNat) (hleft : 1 ≤ left)
    (hk : s.searchLeft + left ≤ k + 1) (rd : Reg) (len c a : Nat) : (primegenRound rd len c left a s).EndsWithin k := by
  have hsearch : s.searchLeft ≤ k := by omega
  unfold primegenRound
  split_ifs with hpass hlast
  · exact endsWithin_primegenJudge hrounds hsearch ..
  · have hnext : s.searchLeft + (left - 1) ≤ k := by omega
    exact .inr ⟨_, rfl, hrounds, by omega, hnext⟩
  · exact endsWithin_primegenAttempt hrounds hsearch ..

theorem endsWithin_mrtestRound {left : Nat} (hk : left ≤ k + 1) (n a : Nat) : (mrtestRound n left a s).EndsWithin k := by
  unfold mrtestRound
  split_ifs with hpass hlast
  · exact endsWithin_finishBool _
  · exact .inr ⟨_, rfl, by omega, by omega⟩
  · exact endsWithin_finishBool _

theorem endsWithin_genfindAttempt (hk : s.attemptsLeft ≤ k) (mode : Mode) (rd : Reg) (p : Nat) :
    (genfindAttempt mode rd p s).EndsWithin k := by
  unfold genfindAttempt
  split_ifs with hlimit
  · exact .inr ⟨_, rfl, (attemptsLeft_countAttempt hlimit).trans_le hk⟩
  · exact endsWithin_raise _

theorem endsWithin_genfindTry (hk : s.attemptsLeft ≤ k) (mode : Mode) (rd : Reg) (p g : Nat) :
    (genfindTry mode rd p g s).EndsWithin k := by
  unfold genfindTry
  split_ifs
  · exact endsWithin_finishValue ..
  · exact endsWithin_genfindAttempt hk ..

/-- An answer taken is one less to come. -/
theorem endsWithin_resume {w : Wait} (h : w.EndsWithin (k + 1) s) (v : Nat) : (resume w v s).EndsWithin k := by
  cases w with
  | randodd => exact endsWithin_finishValue ..
  | mrtest =>
    obtain ⟨-, hk⟩ := h
    exact endsWithin_rangeAnswer (endsWithin_mrtestRound hk ..)
  | primegenCandidate =>
    obtain ⟨hrounds, hk⟩ := h
    exact endsWithin_primegenCandidate hrounds (Nat.le_of_succ_le_succ hk) ..
  | primegenBase =>
    obtain ⟨hrounds, hleft, hk⟩ := h
    exact endsWithin_rangeAnswer (endsWithin_primegenRound hrounds hleft hk ..)
  | genfind => exact endsWithin_rangeAnswer (endsWithin_genfindTry (Nat.le_of_succ_le_succ h) ..)

theorem ended_serve (h : s.engine = .done ∨ s.engine = .fault) (l : List Input) :
    (serve s l).engine = .done ∨ (serve s l).engine = .fault := by
  rwa [serve_of_not_waiting (by rcases h with he | he <;> simp [he])]

/-- With the answers it may take to come, a command ends. -/
theorem ended_serve_answersThen {vs : List Nat} (h : s.EndsWithin vs.length) (rest : List Input) :
    (serve s (answersThen vs rest)).engine = .done ∨ (serve s (answersThen vs rest)).engine = .fault := by
  induction vs generalizing s with
  | nil =>
    obtain hended | ⟨w, hw, hwithin⟩ := h
    · exact ended_serve hended _
    · exact absurd hwithin.pos (by decide)
  | cons v vs ih =>
    obtain hended | ⟨w, hw, hwithin⟩ := h
    · exact ended_serve hended _
    · have hserve : serve s (answersThen (v :: vs) rest) =
          serve (resume w (portWord s v) s) (answersThen vs rest) := serve_answer hw v _
      rw [hserve]
      exact ih (endsWithin_resume hwithin _)

/-! The starts of the commands. -/

theorem endsWithin_mrtestStart (hk : s.ctx.rounds.toNat ≤ k) : (mrtestStart s).EndsWithin k := by
  unfold mrtestStart
  split_ifs with hzero
  · exact endsWithin_raise _
  · split
    · exact endsWithin_finishBool _
    · exact .inr ⟨_, rfl, toNat_pos_of_ne_zero hzero, hk⟩

theorem endsWithin_randoddStart (hk : 1 ≤ k) (rd : Reg) : (randoddStart rd s).EndsWithin k := by
  unfold randoddStart
  split_ifs
  · exact endsWithin_raise _
  · exact .inr ⟨_, rfl, hk⟩

theorem endsWithin_primegenStart (hk : s.searchLeft ≤ k) (rd : Reg) : (primegenStart rd s).EndsWithin k := by
  unfold primegenStart
  split_ifs with hlen hzero
  · exact endsWithin_raise _
  · exact endsWithin_raise _
  · exact endsWithin_primegenAttempt (toNat_pos_of_ne_zero hzero) hk ..

theorem endsWithin_genfindStart (hk : s.attemptsLeft ≤ k) (mode : Mode) (rd : Reg) :
    (genfindStart mode rd s).EndsWithin k := by
  unfold genfindStart
  split
  · exact endsWithin_raise _
  · exact endsWithin_genfindAttempt hk ..

theorem attemptsLeft_le_searchLeft (s : State) : s.attemptsLeft ≤ s.searchLeft :=
  Nat.le_mul_of_pos_right _ (Nat.succ_pos _)

/-- One word, the rounds of a test, and what a search has left are answers enough for any command. -/
theorem endsWithin_startOf (hk : 1 + s.ctx.rounds.toNat + s.searchLeft ≤ k) (i : Instr) :
    (startOf i s).EndsWithin k := by
  by_cases hdraws : i.draws = false
  · have hends := endsIn_of_exec hdraws (exec_eq_startOf hdraws s)
    exact .inl (hends.moves.ended_of_not_busy hends.ended)
  · cases i with
    | mrtest => exact endsWithin_mrtestStart (by omega)
    | randodd rd => exact endsWithin_randoddStart (by omega) rd
    | primegen rd => exact endsWithin_primegenStart (by omega) rd
    | genfind mode rd =>
      rw [startOf_genfind]
      have hattempts := attemptsLeft_le_searchLeft s
      split_ifs
      · exact endsWithin_raise _
      · exact endsWithin_genfindStart (by omega) mode rd
    | modmul | montmul | montr2 | modexp | modinv | gcd | trialdiv | isgen => exact absurd rfl hdraws

/-- A command just accepted has all of `LIMIT` left (R46). -/
theorem searchLeft_accept (cw : Word) (s : State) :
    (accept cw s).searchLeft = s.limit.toNat * (s.rounds.toNat + 1) := by
  simp [State.searchLeft, State.attemptsLeft]

end

end Sys2Proof.Machine

namespace Sys2Proof.Proofs

open Sys2Proof.Machine

/-- Settles O58: each answer taken lowers a bound that is met at acceptance. -/
theorem answeredCommandEnds : Obligations.AnsweredCommandEnds := by
  unfold Obligations.AnsweredCommandEnds
  intro i s vs rest hlen hin
  have hstart : (startOf i (accept (encode i) s)).EndsWithin vs.length := by
    apply endsWithin_startOf
    rwa [searchLeft_accept, accept_ctx, latch_rounds]
  have hinputs : (accept (encode i) s).inputs = answersThen vs rest := hin
  exact ⟨_, exec_eq_serve i _, hinputs ▸ ended_serve_answersThen hstart rest⟩

end Sys2Proof.Proofs

namespace Sys2Proof

/-! ## The word of a command as a number (R90, R91) -/

theorem toNat_append_eq_add {m n : Nat} (x : BitVec m) (y : BitVec n) :
    (x ++ y).toNat = x.toNat * 2 ^ n + y.toNat := by
  rw [BitVec.toNat_append, ← Nat.shiftLeft_add_eq_or_of_lt y.isLt, Nat.shiftLeft_eq]

/-- Format C as a number: each field at its place value. -/
theorem toNat_formatC (fn : BitVec 8) (rs3 rs2 rs1 rd : Reg) (op : BitVec 8) :
    (formatC fn rs3 rs2 rs1 rd op).toNat =
      op.toNat + rd.toNat * 2 ^ 8 + rs1.toNat * 2 ^ 12 + rs2.toNat * 2 ^ 16 + rs3.toNat * 2 ^ 20 +
        fn.toNat * 2 ^ 24 := by
  simp only [formatC, toNat_append_eq_add]
  omega

/-- Every command's register fields stand where format C puts them. -/
theorem fieldsInWord (i : Instr) : Laws.FieldsInWord.Statement i := by
  cases i with
  | modmul => exact Laws.FieldsInWord.modmul ..
  | montmul => exact Laws.FieldsInWord.montmul ..
  | montr2 => exact Laws.FieldsInWord.montr2 ..
  | modexp => exact Laws.FieldsInWord.modexp ..
  | modinv => exact Laws.FieldsInWord.modinv ..
  | gcd => exact Laws.FieldsInWord.gcd ..
  | mrtest => exact Laws.FieldsInWord.mrtest ..
  | randodd => exact Laws.FieldsInWord.randodd ..
  | trialdiv => exact Laws.FieldsInWord.trialdiv ..
  | primegen => exact Laws.FieldsInWord.primegen ..
  | isgen => exact Laws.FieldsInWord.isgen ..
  | genfind => exact Laws.FieldsInWord.genfind ..

end Sys2Proof

namespace Sys2Proof.Machine

/-! ## The sources of a command accepted by its word (R46) -/

section
variable {i : Instr} {r : Reg}

theorem src1_accept_encode (h : i.rs1? = some r) (s : State) : (accept (encode i) s).src1 = s.reg r := by
  obtain ⟨-, hrs1, -, -⟩ := fieldsInWord i
  rw [src1_accept, hrs1 r h]

theorem src2_accept_encode (h : i.rs2? = some r) (s : State) : (accept (encode i) s).src2 = s.reg r := by
  obtain ⟨-, -, hrs2, -⟩ := fieldsInWord i
  rw [src2_accept, hrs2 r h]

theorem src3_accept_encode (h : i.rs3? = some r) (s : State) : (accept (encode i) s).src3 = s.reg r := by
  obtain ⟨-, -, -, hrs3⟩ := fieldsInWord i
  rw [src3_accept, hrs3 r h]

end

/-! ## The extended Euclidean algorithm (R152) -/

/-- One pass of the loop keeps the greatest common divisor of its two remainders. -/
theorem gcd_mod_eq_gcd (r0 r1 : Nat) : Nat.gcd r1 (r0 % r1) = Nat.gcd r0 r1 := by
  rw [Nat.gcd_comm r1, ← Nat.gcd_rec, Nat.gcd_comm]

/-- The remainders of the loop keep their greatest common divisor, and its bound on the passes is not reached. -/
theorem euclidLoop_fst {k r0 r1 : Nat} (hk : r1 < k) (t0 t1 : Int) :
    (euclidLoop k r0 r1 t0 t1).1 = Nat.gcd r0 r1 := by
  induction k generalizing r0 r1 t0 t1 with
  | zero => omega
  | succ k ih =>
    rw [euclidLoop]
    split_ifs with hr1
    · rw [hr1, Nat.gcd_zero_right]
    · have hlt : r0 % r1 < r1 := Nat.mod_lt _ (Nat.pos_of_ne_zero hr1)
      rw [ih (by omega), gcd_mod_eq_gcd]

/-- Each coefficient of the loop stays the factor of `a` that gives its remainder modulo `m`. -/
theorem euclidLoop_snd_mul_modEq {a m : Int} (k : Nat) {r0 r1 : Nat} {t0 t1 : Int}
    (h0 : t0 * a ≡ r0 [ZMOD m]) (h1 : t1 * a ≡ r1 [ZMOD m]) :
    (euclidLoop k r0 r1 t0 t1).2 * a ≡ (euclidLoop k r0 r1 t0 t1).1 [ZMOD m] := by
  induction k generalizing r0 r1 t0 t1 with
  | zero => exact h0
  | succ k ih =>
    rw [euclidLoop]
    split_ifs
    · exact h0
    · refine ih h1 ?_
      calc (t0 - ((r0 / r1 : Nat) : Int) * t1) * a
          = t0 * a - ((r0 / r1 : Nat) : Int) * (t1 * a) := by ring
        _ ≡ r0 - ((r0 / r1 : Nat) : Int) * r1 [ZMOD m] := h0.sub (h1.mul_left _)
        _ = ((r0 % r1 : Nat) : Int) := by
          rw [Int.natCast_mod, Int.natCast_div, Int.emod_def, mul_comm]

theorem euclid_fst {m : Nat} (hm : 0 < m) (a : Nat) : (euclid a m).1 = Nat.gcd a m := by
  rw [euclid, euclidLoop_fst (Nat.lt_succ_of_lt (Nat.mod_lt a hm)), gcd_mod_eq_gcd]

theorem euclid_snd_mul_modEq (a m : Nat) : (euclid a m).2 * a ≡ (euclid a m).1 [ZMOD m] := by
  apply euclidLoop_snd_mul_modEq
  · rw [zero_mul]
    exact (Int.modEq_zero_iff_dvd.2 dvd_rfl).symm
  · rw [one_mul]
    exact_mod_cast (Nat.mod_modEq a m).symm

/-- What the last line of R152 gives: the factor that takes `a` to the greatest common divisor modulo `m`. -/
theorem mul_invMod_modEq_gcd {m : Nat} (hm : 0 < m) (a : Nat) : a * invMod a m ≡ Nat.gcd a m [MOD m] := by
  have hcast : (invMod a m : Int) = (euclid a m).2 % m :=
    Int.toNat_of_nonneg (Int.emod_nonneg _ (Int.natCast_ne_zero.2 hm.ne'))
  rw [← Int.natCast_modEq_iff, Int.natCast_mul, hcast, ← euclid_fst hm]
  calc (a : Int) * ((euclid a m).2 % m)
      ≡ a * (euclid a m).2 [ZMOD m] := (Int.mod_modEq _ _).mul_left _
    _ = (euclid a m).2 * a := mul_comm _ _
    _ ≡ (euclid a m).1 [ZMOD m] := euclid_snd_mul_modEq a m

/-- `invMod` inverts what is coprime to the modulus (R151, R152). -/
theorem mul_invMod_modEq_one {a m : Nat} (hm : 0 < m) (h : Nat.Coprime a m) : a * invMod a m ≡ 1 [MOD m] := by
  have hgcd := mul_invMod_modEq_gcd hm a
  rwa [h.gcd_eq_one] at hgcd

/-! ## The Montgomery product (R123, R130) -/

section
variable {n : Nat} (hn : n % 2 = 1)
include hn

/-- The radix of Montgomery form is invertible modulo an odd modulus. -/
theorem coprime_radix_of_odd (w : Nat) : Nat.Coprime (2 ^ w) n :=
  (Nat.coprime_two_left.2 (Nat.odd_iff.2 hn)).pow_left w

theorem rInv_lt (w : Nat) : rInv w n < n := invMod_lt (by omega) _

theorem radix_mul_rInv_modEq_one (w : Nat) : 2 ^ w * rInv w n ≡ 1 [MOD n] := by
  have hcop : Nat.Coprime (2 ^ w % n) n := (ZMod.coprime_mod_iff_coprime _ n).2 (coprime_radix_of_odd hn w)
  exact ((Nat.mod_modEq _ n).symm.mul_right _).trans (mul_invMod_modEq_one (by omega) hcop)

/-- `Rinv(n)` is unique below `n` (R123). -/
theorem eq_rInv_of_radix_mul_modEq_one {w r : Nat} (hr : r < n) (h : 2 ^ w * r ≡ 1 [MOD n]) : r = rInv w n :=
  Nat.ModEq.eq_of_lt_of_lt
    (Nat.ModEq.cancel_left_of_coprime (coprime_radix_of_odd hn w).symm
      (h.trans (radix_mul_rInv_modEq_one hn w).symm))
    hr (rInv_lt hn w)

/-- The Montgomery product is the residue that the radix takes to the plain product. -/
theorem montProd_eq_of_radix_mul_modEq {w a b c : Nat} (h : 2 ^ w * c ≡ a * b [MOD n]) :
    montProd w a b n = c % n := by
  change a * b * rInv w n ≡ c [MOD n]
  calc a * b * rInv w n
      ≡ 2 ^ w * c * rInv w n [MOD n] := h.symm.mul_right _
    _ = 2 ^ w * rInv w n * c := by ring
    _ ≡ 1 * c [MOD n] := (radix_mul_rInv_modEq_one hn w).mul_right c
    _ = c := one_mul c

/-- The product of two values in Montgomery form is in Montgomery form (R130). -/
theorem montProd_of_forms (w a b : Nat) :
    montProd w (a * 2 ^ w % n) (b * 2 ^ w % n) n = a * b * 2 ^ w % n := by
  apply montProd_eq_of_radix_mul_modEq hn
  calc 2 ^ w * (a * b * 2 ^ w)
      = a * 2 ^ w * (b * 2 ^ w) := by ring
    _ ≡ a * 2 ^ w % n * (b * 2 ^ w % n) [MOD n] := (Nat.mod_modEq _ n).symm.mul (Nat.mod_modEq _ n).symm

/-- The product with the constant of MONTR2 enters Montgomery form (R131). -/
theorem montProd_radix_sq (w a : Nat) : montProd w a (2 ^ w * 2 ^ w % n) n = a * 2 ^ w % n := by
  apply montProd_eq_of_radix_mul_modEq hn
  calc 2 ^ w * (a * 2 ^ w)
      = a * (2 ^ w * 2 ^ w) := by ring
    _ ≡ a * (2 ^ w * 2 ^ w % n) [MOD n] := (Nat.mod_modEq _ n).symm.mul_left a

/-- The product with 1 leaves Montgomery form (R132). -/
theorem montProd_form_one (w a : Nat) : montProd w (a * 2 ^ w % n) 1 n = a % n := by
  apply montProd_eq_of_radix_mul_modEq hn
  rw [mul_one, mul_comm]
  exact (Nat.mod_modEq _ n).symm

end

/-! ## The bit-serial loop of R126 -/

section
variable {a b n : Nat}

theorem montPass_lt {s : Nat} (hb : b < n) (hs : s < 2 * n) (bit : Bool) : montPass b n s bit < 2 * n := by
  simp only [montPass]
  split_ifs <;> omega

theorem montLoop_lt (hb : b < n) (i : Nat) : montLoop a b n i < 2 * n := by
  induction i with
  | zero => rw [montLoop]; omega
  | succ i ih => exact montPass_lt hb ih _

/-- One conditional subtraction reduces the sum of the loop. -/
theorem montSerial_eq_mod (hb : b < n) (w : Nat) : montSerial w a b n = montLoop a b n w % n := by
  have hlt : montLoop a b n w < 2 * n := montLoop_lt hb w
  simp only [montSerial]
  split_ifs with hle
  · rw [Nat.mod_eq_sub_mod hle, Nat.mod_eq_of_lt (by omega)]
  · rw [Nat.mod_eq_of_lt (by omega)]

variable (hn : n % 2 = 1)
include hn

/-- A pass adds the bit's share of the product and halves modulo `n`: `n` is added to make an odd sum even. -/
theorem two_mul_montPass_modEq (s : Nat) (bit : Bool) : 2 * montPass b n s bit ≡ s + bit.toNat * b [MOD n] := by
  have hsum : s + (if bit then b else 0) = s + bit.toNat * b := by cases bit <;> simp
  simp only [montPass, hsum]
  split_ifs with hodd
  · rw [Nat.mul_div_cancel' (by omega)]
    exact Nat.add_modEq_right
  · rw [Nat.mul_div_cancel' (by omega)]

/-- After `i` passes the sum is the product of `b` and the low `i` bits of `a`, divided by `2^i` modulo `n`. -/
theorem two_pow_mul_montLoop_modEq (i : Nat) : 2 ^ i * montLoop a b n i ≡ a % 2 ^ i * b [MOD n] := by
  induction i with
  | zero => rw [montLoop, Nat.pow_zero, Nat.mod_one, Nat.zero_mul]
  | succ i ih =>
    calc 2 ^ (i + 1) * montLoop a b n (i + 1)
        = 2 ^ i * (2 * montPass b n (montLoop a b n i) (a.testBit i)) := by rw [montLoop]; ring
      _ ≡ 2 ^ i * (montLoop a b n i + (a.testBit i).toNat * b) [MOD n] :=
        (two_mul_montPass_modEq hn _ _).mul_left _
      _ = 2 ^ i * montLoop a b n i + 2 ^ i * (a.testBit i).toNat * b := by ring
      _ ≡ a % 2 ^ i * b + 2 ^ i * (a.testBit i).toNat * b [MOD n] := ih.add_right _
      _ = a % 2 ^ (i + 1) * b := by rw [Nat.mod_pow_succ, ← Nat.toNat_testBit, Nat.add_mul]

/-- The bit-serial loop computes the Montgomery product (R126). -/
theorem montSerial_eq_montProd {w : Nat} (ha : a < 2 ^ w) (hb : b < n) : montSerial w a b n = montProd w a b n := by
  have hloop : 2 ^ w * montLoop a b n w ≡ a * b [MOD n] := by
    have hw := two_pow_mul_montLoop_modEq (a := a) (b := b) hn w
    rwa [Nat.mod_eq_of_lt ha] at hw
  rw [montSerial_eq_mod hb, montProd_eq_of_radix_mul_modEq hn hloop]

end

/-! ## The commands of unit 1 -/

theorem montCheck_zero {n : Nat} (hzero : n = 0) : montCheck n = some .zeroModulus := if_pos hzero

theorem montCheck_even {n : Nat} (hne : n ≠ 0) (heven : n % 2 = 0) : montCheck n = some .evenModulus := by
  rw [montCheck, if_neg hne, if_pos heven]

theorem montCheck_odd {n : Nat} (hodd : n % 2 = 1) : montCheck n = none := by
  rw [montCheck, if_neg (by omega), if_neg (by omega)]

section
variable {rd rs1 rs2 rs3 : Reg} {s : State}

theorem exec_modmul_of_zero (h : s.src3 = 0) :
    exec (.modmul rd rs1 rs2 rs3) s = .next (raiseParam .zeroModulus s) :=
  congrArg Host.Outcome.next (if_pos h)

theorem exec_modmul_of_ne_zero (h : s.src3 ≠ 0) :
    exec (.modmul rd rs1 rs2 rs3) s = .next (finishValue rd (s.src1 * s.src2 % s.src3) s) :=
  congrArg Host.Outcome.next (if_neg h)

theorem exec_montmul_of_check {cause : ParamCause} (h : montCheck s.src3 = some cause) :
    exec (.montmul rd rs1 rs2 rs3) s = .next (raiseParam cause s) := by
  simp only [exec, execMontmul, h]

theorem exec_montmul_of_odd (h : s.src3 % 2 = 1) :
    exec (.montmul rd rs1 rs2 rs3) s = .next (finishValue rd (montProd s.width s.src1 s.src2 s.src3) s) := by
  simp only [exec, execMontmul, montCheck_odd h]

theorem exec_montr2_of_check {cause : ParamCause} (h : montCheck s.src3 = some cause) :
    exec (.montr2 rd rs3) s = .next (raiseParam cause s) := by
  simp only [exec, execMontr2, h]

theorem exec_montr2_of_odd (h : s.src3 % 2 = 1) :
    exec (.montr2 rd rs3) s = .next (finishValue rd (2 ^ (2 * s.width) % s.src3) s) := by
  simp only [exec, execMontr2, montCheck_odd h]

end

end Sys2Proof.Machine

namespace Sys2Proof.Proofs

open Sys2Proof.Machine

/-- Settles O10: the sources are the registers the word names, and the modulus is tested before the product is taken. -/
theorem modmulResult : Obligations.ModmulResult := by
  unfold Obligations.ModmulResult
  intro rd rs1 rs2 rs3 s
  have hsrc1 := src1_accept_encode (i := .modmul rd rs1 rs2 rs3) rfl s
  have hsrc2 := src2_accept_encode (i := .modmul rd rs1 rs2 rs3) rfl s
  have hsrc3 := src3_accept_encode (i := .modmul rd rs1 rs2 rs3) rfl s
  refine ⟨by simp [encode, toNat_formatC], fun hzero => ?_, fun hne => ?_⟩
  · rw [exec_modmul_of_zero (hsrc3.trans hzero)]
    rfl
  · rw [exec_modmul_of_ne_zero (hsrc3 ▸ hne), hsrc1, hsrc2, hsrc3]
    rfl

/-- Settles O11: `Rinv` is what the extended Euclidean algorithm finds for the radix, which an odd modulus makes
invertible. -/
theorem montmulResult : Obligations.MontmulResult := by
  unfold Obligations.MontmulResult
  intro rd rs1 rs2 rs3 s
  have hsrc1 := src1_accept_encode (i := .montmul rd rs1 rs2 rs3) rfl s
  have hsrc2 := src2_accept_encode (i := .montmul rd rs1 rs2 rs3) rfl s
  have hsrc3 := src3_accept_encode (i := .montmul rd rs1 rs2 rs3) rfl s
  refine ⟨by simp [encode, toNat_formatC], fun hzero => ?_, fun hne heven => ?_, fun hodd => ?_⟩
  · rw [exec_montmul_of_check (montCheck_zero (hsrc3.trans hzero))]
    rfl
  · rw [exec_montmul_of_check (montCheck_even (hsrc3 ▸ hne) (hsrc3 ▸ heven))]
    rfl
  · refine ⟨rInv s.par.width (s.reg rs3), rInv_lt hodd _, radix_mul_rInv_modEq_one hodd _,
      fun r hr h => eq_rInv_of_radix_mul_modEq_one hodd hr h, ?_⟩
    rw [exec_montmul_of_odd (hsrc3 ▸ hodd), hsrc1, hsrc2, hsrc3]
    rfl

/-- Settles O12: MONTR2 makes the checks of MONTMUL, then reduces the square of the radix. -/
theorem montr2Result : Obligations.Montr2Result := by
  unfold Obligations.Montr2Result
  intro rd rs3 s
  have hsrc3 := src3_accept_encode (i := .montr2 rd rs3) rfl s
  refine ⟨by simp [encode, toNat_formatC], fun hzero => ?_, fun hne heven => ?_, fun hodd => ?_⟩
  · rw [exec_montr2_of_check (montCheck_zero (hsrc3.trans hzero))]
    rfl
  · rw [exec_montr2_of_check (montCheck_even (hsrc3 ▸ hne) (hsrc3 ▸ heven))]
    rfl
  · rw [exec_montr2_of_odd (hsrc3 ▸ hodd), hsrc3]
    rfl

/-- Settles O13: the sum times the radix is the product modulo `n`, and only the Montgomery product is such a residue. -/
theorem bitSerialMontgomeryIsTheProduct : Obligations.BitSerialMontgomeryIsTheProduct := by
  unfold Obligations.BitSerialMontgomeryIsTheProduct
  intro w a b n hodd hw ha hb
  exact ⟨fun i _ => montLoop_lt hb i, montSerial_eq_montProd hodd (ha.trans hw) hb⟩

/-- Settles O14: the way there and back is the three laws in a row. -/
theorem montgomeryFormLaws : Obligations.MontgomeryFormLaws := by
  unfold Obligations.MontgomeryFormLaws
  intro w a b n hodd
  refine ⟨montProd_of_forms hodd w a b, montProd_radix_sq hodd w a, montProd_form_one hodd w a, ?_⟩
  have hsq : 2 ^ (2 * w) = 2 ^ w * 2 ^ w := by rw [Nat.two_mul, Nat.pow_add]
  rw [hsq, montProd_radix_sq hodd, montProd_radix_sq hodd, montProd_of_forms hodd, montProd_form_one hodd]

end Sys2Proof.Proofs

namespace Sys2Proof.Machine

/-! ## Square and multiply (R144) -/

/-- A pass squares the accumulator, and multiplies by the base if the bit is 1. -/
theorem powModPass_modEq (acc b n : Nat) (bit : Bool) :
    (if bit then acc * acc % n * b % n else acc * acc % n) ≡ acc ^ 2 * b ^ bit.toNat [MOD n] := by
  have hsq : acc * acc % n ≡ acc ^ 2 [MOD n] := sq acc ▸ Nat.mod_modEq _ n
  cases bit with
  | false => simpa using hsq
  | true => simpa using (Nat.mod_modEq _ n).trans (hsq.mul_right b)

/-- The loop over the low `i` bits of the exponent squares what it starts from `i` times, and multiplies it by the base's
power to these bits. -/
theorem powModLoop_modEq (b n e i acc : Nat) :
    powModLoop b n e i acc ≡ acc ^ 2 ^ i * b ^ (e % 2 ^ i) [MOD n] := by
  induction i generalizing acc with
  | zero => simp [powModLoop, Nat.mod_one, Nat.ModEq.rfl]
  | succ i ih =>
    rw [powModLoop]
    refine (ih _).trans ?_
    calc _ ≡ (acc ^ 2 * b ^ (e.testBit i).toNat) ^ 2 ^ i * b ^ (e % 2 ^ i) [MOD n] :=
          ((powModPass_modEq acc b n _).pow _).mul_right _
      _ = acc ^ 2 ^ (i + 1) * b ^ (e % 2 ^ i + 2 ^ i * (e.testBit i).toNat) := by ring
      _ = acc ^ 2 ^ (i + 1) * b ^ (e % 2 ^ (i + 1)) := by rw [Nat.mod_pow_succ, ← Nat.toNat_testBit]

/-- Square-and-multiply computes the integer power (R140, R141). -/
theorem powMod_eq_pow_mod {n : Nat} (hn : 0 < n) (base e : Nat) : powMod base e n = base ^ e % n := by
  have he : e % 2 ^ bitlen e = e := Nat.mod_eq_of_lt ((bitlen_le_iff e _).1 le_rfl)
  have hmod : powMod base e n ≡ base ^ e [MOD n] :=
    calc powMod base e n
        ≡ (1 % n) ^ 2 ^ bitlen e * (base % n) ^ (e % 2 ^ bitlen e) [MOD n] := powModLoop_modEq ..
      _ ≡ 1 ^ 2 ^ bitlen e * base ^ (e % 2 ^ bitlen e) [MOD n] :=
        ((Nat.mod_modEq 1 n).pow _).mul ((Nat.mod_modEq base n).pow _)
      _ = base ^ e := by rw [one_pow, one_mul, he]
  rw [← hmod, Nat.mod_eq_of_lt (powMod_lt hn base e)]

/-! ## The command of unit 2 -/

section
variable {rd rs1 rs2 rs3 : Reg} {s : State}

theorem exec_modexp_of_zero (h : s.src3 = 0) :
    exec (.modexp rd rs1 rs2 rs3) s = .next (raiseParam .zeroModulus s) :=
  congrArg Host.Outcome.next (if_pos h)

theorem exec_modexp_of_ne_zero (h : s.src3 ≠ 0) :
    exec (.modexp rd rs1 rs2 rs3) s = .next (finishValue rd (s.src1 ^ s.src2 % s.src3) s) := by
  rw [← powMod_eq_pow_mod (Nat.pos_of_ne_zero h)]
  exact congrArg Host.Outcome.next (if_neg h)

end

end Sys2Proof.Machine

namespace Sys2Proof.Proofs

open Sys2Proof.Machine

/-- Settles O15: the modulus is tested first, and the square-and-multiply loop computes the power. -/
theorem modexpResult : Obligations.ModexpResult := by
  unfold Obligations.ModexpResult
  intro rd rs1 rs2 rs3 s
  have hsrc1 := src1_accept_encode (i := .modexp rd rs1 rs2 rs3) rfl s
  have hsrc2 := src2_accept_encode (i := .modexp rd rs1 rs2 rs3) rfl s
  have hsrc3 := src3_accept_encode (i := .modexp rd rs1 rs2 rs3) rfl s
  refine ⟨by simp [encode, toNat_formatC], fun hzero => ?_, fun hne => ?_⟩
  · rw [exec_modexp_of_zero (hsrc3.trans hzero)]
    rfl
  · rw [exec_modexp_of_ne_zero (hsrc3 ▸ hne), hsrc1, hsrc2, hsrc3]
    rfl

end Sys2Proof.Proofs

namespace Sys2Proof.Machine

/-! ## The inverse modulo `m` (R151) -/

/-- The inverse is unique below the modulus (R151). -/
theorem eq_invMod_of_mul_modEq_one {a m v : Nat} (hcop : Nat.Coprime a m) (hv : v < m) (h : a * v ≡ 1 [MOD m]) :
    v = invMod a m := by
  have hm : 0 < m := Nat.zero_lt_of_lt hv
  have hsame : a * v ≡ a * invMod a m [MOD m] := h.trans (mul_invMod_modEq_one hm hcop).symm
  exact (Nat.ModEq.cancel_left_of_coprime hcop.symm hsame).eq_of_lt_of_lt hv (invMod_lt hm a)

/-! ## The commands of unit 3 -/

section
variable {rd rs1 rs2 rs3 : Reg} {s : State}

theorem exec_modinv_of_zero (h : s.src3 = 0) :
    exec (.modinv rd rs1 rs3) s = .next (raiseParam .zeroModulus s) :=
  congrArg Host.Outcome.next (if_pos h)

theorem exec_modinv_of_gcd_ne_one (hne : s.src3 ≠ 0) (hgcd : Nat.gcd s.src1 s.src3 ≠ 1) :
    exec (.modinv rd rs1 rs3) s = .next (raise (.noInverse (Nat.gcd s.src1 s.src3)) s) :=
  congrArg Host.Outcome.next ((if_neg hne).trans (if_pos hgcd))

theorem exec_modinv_of_coprime (hne : s.src3 ≠ 0) (hcop : Nat.Coprime s.src1 s.src3) :
    exec (.modinv rd rs1 rs3) s = .next (finishValue rd (invMod s.src1 s.src3) s) :=
  congrArg Host.Outcome.next ((if_neg hne).trans (if_neg (not_not_intro hcop)))

theorem exec_gcd : exec (.gcd rd rs1 rs2) s = .next (finishValue rd (Nat.gcd s.src1 s.src2) s) := rfl

end

end Sys2Proof.Machine

namespace Sys2Proof.Proofs

open Sys2Proof.Machine

/-- Settles O16: the modulus is tested, then the greatest common divisor; where both pass, the extended Euclidean
algorithm finds the inverse, and a coprime factor cancels. -/
theorem modinvResult : Obligations.ModinvResult := by
  unfold Obligations.ModinvResult
  intro rd rs1 rs3 s
  have hsrc1 := src1_accept_encode (i := .modinv rd rs1 rs3) rfl s
  have hsrc3 := src3_accept_encode (i := .modinv rd rs1 rs3) rfl s
  refine ⟨by simp [encode, toNat_formatC], fun hzero => ?_, fun hne hgcd => ?_, fun hne hcop => ?_⟩
  · rw [exec_modinv_of_zero (hsrc3.trans hzero)]
    rfl
  · rw [exec_modinv_of_gcd_ne_one (hsrc3 ▸ hne) (by rwa [hsrc1, hsrc3]), hsrc1, hsrc3]
    rfl
  · have hpos : 0 < s.reg rs3 := Nat.pos_of_ne_zero hne
    refine ⟨invMod (s.reg rs1) (s.reg rs3), invMod_lt hpos _, mul_invMod_modEq_one hpos hcop,
      fun u hu h => eq_invMod_of_mul_modEq_one hcop hu h, ?_⟩
    rw [exec_modinv_of_coprime (hsrc3 ▸ hne) (by rwa [hsrc1, hsrc3]), hsrc1, hsrc3]
    rfl

/-- Settles O17: GCD ends with `Nat.gcd` of its sources, the common divisor that every other one divides. -/
theorem gcdResult : Obligations.GcdResult := by
  unfold Obligations.GcdResult
  intro rd rs1 rs2 s
  have hsrc1 := src1_accept_encode (i := .gcd rd rs1 rs2) rfl s
  have hsrc2 := src2_accept_encode (i := .gcd rd rs1 rs2) rfl s
  refine ⟨by simp [encode, toNat_formatC], Nat.gcd (s.reg rs1) (s.reg rs2), Nat.gcd_dvd_left .., Nat.gcd_dvd_right ..,
    fun _ => Nat.dvd_gcd, ?_⟩
  rw [exec_gcd, hsrc1, hsrc2]
  rfl

end Sys2Proof.Proofs

namespace Sys2Proof.Machine

/-! ## The decomposition `n - 1 = 2^s * d` (R169) -/

section
variable {d e n : Nat}

/-- The count stops at an odd number, so a bound that is not below the number of zeros is not reached. -/
theorem trailingZeros_two_pow_mul (hd : d % 2 = 1) {k : Nat} (hk : e ≤ k) : trailingZeros k (2 ^ e * d) = e := by
  induction k generalizing e with
  | zero =>
    obtain rfl : e = 0 := Nat.le_zero.1 hk
    rfl
  | succ k ih =>
    cases e with
    | zero => simp [trailingZeros, hd]
    | succ e =>
      have heven : 2 ^ (e + 1) * d = 2 * (2 ^ e * d) := by ring
      rw [heven, trailingZeros, if_neg (by omega), Nat.mul_div_cancel_left _ (by decide),
        ih (Nat.le_of_succ_le_succ hk)]

theorem twoPart_two_pow_mul (hd : d % 2 = 1) : twoPart (2 ^ e * d) = e := by
  refine trailingZeros_two_pow_mul hd (le_of_lt ((Nat.pow_lt_pow_iff_right Nat.one_lt_two).1 ?_))
  calc 2 ^ e ≤ 2 ^ e * d := Nat.le_mul_of_pos_right _ (by omega)
    _ < 2 ^ bitlen (2 ^ e * d) := (bitlen_le_iff _ _).1 le_rfl

theorem oddPart_two_pow_mul (hd : d % 2 = 1) : oddPart (2 ^ e * d) = d := by
  rw [oddPart, twoPart_two_pow_mul hd, Nat.mul_div_cancel_left _ (Nat.two_pow_pos e)]

/-- The decomposition of R169 exists and, for an odd `n`, has at least one factor 2. -/
theorem exists_sub_one_eq_two_pow_mul (hn : 1 < n) (hodd : n % 2 = 1) :
    ∃ e d, n - 1 = 2 ^ (e + 1) * d ∧ d % 2 = 1 := by
  obtain ⟨e, d, hd, h⟩ := Nat.exists_eq_two_pow_mul_odd (show n - 1 ≠ 0 by omega)
  have hd' : d % 2 = 1 := Nat.odd_iff.1 hd
  cases e with
  | zero => omega
  | succ e => exact ⟨e, d, h, hd'⟩

/-- The decomposition of R169 is unique, so a round passes or fails by any one (R173). -/
theorem passesRound_iff_of_eq (h : n - 1 = 2 ^ e * d) (hd : d % 2 = 1) (a : Nat) :
    PassesRound n a ↔ a ^ d % n = 1 ∨ ∃ r, r < e ∧ a ^ (2 ^ r * d) % n = n - 1 := by
  refine ⟨?_, fun hpass => ⟨e, d, h, hd, hpass⟩⟩
  rintro ⟨e', d', h', hd', hpass⟩
  have hsame : 2 ^ e * d = 2 ^ e' * d' := h.symm.trans h'
  obtain rfl : e = e' := by rw [← twoPart_two_pow_mul (e := e) hd, hsame, twoPart_two_pow_mul hd']
  obtain rfl : d = d' := by rw [← oddPart_two_pow_mul (e := e) hd, hsame, oddPart_two_pow_mul hd']
  exact hpass

end

/-! ## One round (R166, R171, R173) -/

section
variable {n : Nat}

/-- The squaring loop looks for `n - 1` among the next `k` squares: once a square is 1 all later ones are, so the early
exit misses none. -/
theorem squaresReachMinusOne_iff (hn : 3 ≤ n) (k y : Nat) :
    squaresReachMinusOne n k y = true ↔ ∃ r, r < k ∧ y ^ 2 ^ (r + 1) % n = n - 1 := by
  induction k generalizing y with
  | zero => simp [squaresReachMinusOne]
  | succ k ih =>
    have hnext : ∀ r, y ^ 2 ^ (r + 1) % n = (y * y % n) ^ 2 ^ r % n := fun r => by
      rw [← Nat.pow_mod, ← sq, ← pow_mul, pow_succ']
    simp only [squaresReachMinusOne, hnext]
    split_ifs with hminus hone
    · have hlt : n - 1 < n := by omega
      exact iff_of_true rfl ⟨0, Nat.succ_pos k, by rw [hminus, pow_zero, pow_one, Nat.mod_eq_of_lt hlt]⟩
    · have hall : ∀ r, (y * y % n) ^ 2 ^ r % n = 1 := fun r => by
        rw [hone, one_pow, Nat.mod_eq_of_lt (by omega)]
      simp only [hall]
      constructor
      · simp
      · rintro ⟨r, -, hr⟩
        omega
    · rw [ih]
      refine ⟨fun ⟨r, hr, h⟩ => ⟨r + 1, Nat.succ_lt_succ hr, h⟩, ?_⟩
      rintro ⟨r, hr, h⟩
      cases r with
      | zero => exact absurd (by simpa using h) hminus
      | succ r => exact ⟨r, Nat.lt_of_succ_lt_succ hr, h⟩

/-- The round of R166 is the round of R173, which has no loop. -/
theorem roundPasses_iff (hn : 3 ≤ n) (hodd : n % 2 = 1) (a : Nat) : roundPasses n a = true ↔ PassesRound n a := by
  obtain ⟨e, d, h, hd⟩ := exists_sub_one_eq_two_pow_mul (by omega) hodd
  have hsquare : ∀ r, (a ^ d % n) ^ 2 ^ (r + 1) % n = a ^ (2 ^ (r + 1) * d) % n := fun r => by
    rw [← Nat.pow_mod, ← pow_mul, mul_comm d]
  have hloop : roundPasses n a = true ↔
      (a ^ d % n = 1 ∨ a ^ d % n = n - 1) ∨ ∃ r, r < e ∧ a ^ (2 ^ (r + 1) * d) % n = n - 1 := by
    simp only [roundPasses, powMod_eq_pow_mod (show 0 < n by omega)]
    rw [h, oddPart_two_pow_mul hd, twoPart_two_pow_mul hd, ← h, Nat.add_sub_cancel]
    split_ifs with hfirst
    · simp [hfirst]
    · simp only [squaresReachMinusOne_iff hn, hsquare, hfirst, false_or]
  rw [hloop, passesRound_iff_of_eq h hd, or_assoc]
  refine or_congr_right ⟨?_, ?_⟩
  · rintro (h0 | ⟨r, hr, hpow⟩)
    · exact ⟨0, Nat.succ_pos e, by rwa [pow_zero, one_mul]⟩
    · exact ⟨r + 1, Nat.succ_lt_succ hr, hpow⟩
  · rintro ⟨r, hr, hpow⟩
    cases r with
    | zero => exact .inl (by rwa [pow_zero, one_mul] at hpow)
    | succ r => exact .inr ⟨r, Nat.lt_of_succ_lt_succ hr, hpow⟩

/-- Where a square root of 1 is 1 or -1, an element that `e` squarings take to 1 is 1, or -1 is among them before. -/
theorem eq_one_or_exists_pow_eq_neg_one {F : Type} [Field F] {x : F} {e : Nat} (h : x ^ 2 ^ e = 1) :
    x = 1 ∨ ∃ r, r < e ∧ x ^ 2 ^ r = -1 := by
  induction e with
  | zero => exact .inl (by simpa using h)
  | succ e ih =>
    rw [pow_succ, pow_mul, sq_eq_one_iff] at h
    obtain hone | hminus := h
    · exact (ih hone).imp_right fun ⟨r, hr, hpow⟩ => ⟨r, Nat.lt_succ_of_lt hr, hpow⟩
    · exact .inr ⟨e, Nat.lt_succ_self e, hminus⟩

/-- A prime passes the round of every base that is not its multiple (R174), by Fermat's little theorem. -/
theorem passesRound_of_prime {a : Nat} (hp : n.Prime) (hodd : n % 2 = 1) (ha : ¬ n ∣ a) : PassesRound n a := by
  have : Fact n.Prime := ⟨hp⟩
  obtain ⟨e, d, h, hd⟩ := exists_sub_one_eq_two_pow_mul hp.one_lt hodd
  have hfermat : ((a : ZMod n) ^ d) ^ 2 ^ (e + 1) = 1 := by
    rw [← pow_mul, mul_comm, ← h]
    exact ZMod.pow_card_sub_one_eq_one fun h0 => ha ((ZMod.natCast_eq_zero_iff a n).1 h0)
  refine ⟨e + 1, d, h, hd, (eq_one_or_exists_pow_eq_neg_one hfermat).imp ?_ ?_⟩
  · intro hone
    rw [← Nat.mod_eq_of_lt hp.one_lt, ← ZMod.natCast_eq_natCast_iff']
    exact_mod_cast hone
  · rintro ⟨r, hr, hminus⟩
    refine ⟨r, hr, ?_⟩
    rw [← Nat.mod_eq_of_lt (Nat.sub_one_lt hp.ne_zero), ← ZMod.natCast_eq_natCast_iff', Nat.cast_pow,
      Nat.cast_sub hp.one_le, ZMod.natCast_self, zero_sub, Nat.cast_one, mul_comm, pow_mul, hminus]

end

/-! ## The direct lookup (R168) -/

section
variable {n : Nat}

theorem primeLookup_of_two_or_three (h : n = 2 ∨ n = 3) : primeLookup n = some true := by
  rcases h with rfl | rfl <;> rfl

theorem primeLookup_of_small_or_even (h : n ≤ 1 ∨ (2 < n ∧ n % 2 = 0)) : primeLookup n = some false := by
  unfold primeLookup
  split_ifs with hsmall heven
  · simpa using show n ≠ 2 ∧ n ≠ 3 by omega
  · rfl
  · omega

theorem primeLookup_of_odd (hn : 5 ≤ n) (hodd : n % 2 = 1) : primeLookup n = none := by
  rw [primeLookup, if_neg (by omega), if_neg (by omega)]

end

/-! ## MRTEST with its bases answered (R166, R172, R245) -/

section
variable {s : State} {n left v : Nat}

theorem portWord_of_lt (h : v < s.par.radix) : portWord s v = v := Nat.mod_eq_of_lt h

/-- The count after `k` attempts (R41). -/
theorem iterate_countAttempt (k : Nat) (s : State) :
    countAttempt^[k] s = { s with attempts := s.attempts + BitVec.ofNat 32 k } := by
  induction k generalizing s with
  | zero => simp
  | succ k ih =>
    rw [Function.iterate_succ_apply, ih, Nat.add_comm k, BitVec.ofNat_add, ← BitVec.add_assoc]
    rfl

theorem IsBase.lt (h : IsBase n v) : v < n := by
  obtain ⟨hlo, hhi⟩ := h
  omega

theorem mrtestAnswer_of_base (hbase : IsBase n v) : mrtestAnswer n left v s = mrtestRound n left v s := if_pos hbase

theorem mrtestAnswer_of_not_base (hbase : ¬ IsBase n v) : mrtestAnswer n left v s = raise .entropyRange s :=
  if_neg hbase

theorem mrtestRound_of_fail (h : ¬ roundPasses n v = true) :
    mrtestRound n left v s = finishBool false (countAttempt s) := if_neg h

theorem mrtestRound_of_pass_last (h : roundPasses n v = true) (hleft : left ≤ 1) :
    mrtestRound n left v s = finishBool true (countAttempt s) := (if_pos h).trans (if_pos hleft)

theorem mrtestRound_of_pass_more (h : roundPasses n v = true) (hleft : 1 < left) :
    mrtestRound n left v s = placeDraw (.mrtest n (left - 1)) (countAttempt s) :=
  (if_pos h).trans (if_neg (Nat.not_le.2 hleft))

/-- MRTEST at a draw takes a base the port can carry. -/
theorem serve_mrtest_cons (hv : v < s.par.radix) (vs : List Nat) (rest : List Input) :
    serve (placeDraw (.mrtest n left) s) (answersThen (v :: vs) rest) =
      serve (mrtestAnswer n left v (placeDraw (.mrtest n left) s)) (answersThen vs rest) := by
  have hport : portWord (placeDraw (.mrtest n left) s) v = v := portWord_of_lt hv
  change serve _ (.answer v :: answersThen vs rest) = _
  rw [serve_answer (placeDraw_engine ..), hport]
  rfl

/-- Bases that pass, fewer than the rounds left, bring MRTEST to the draw after them, each of them counted. -/
theorem serve_mrtest_append {pre : List Nat} (hn : n < s.par.radix) (hlen : pre.length < left)
    (hpre : ∀ a ∈ pre, IsBase n a ∧ roundPasses n a = true) (vs : List Nat) (rest : List Input) :
    serve (placeDraw (.mrtest n left) s) (answersThen (pre ++ vs) rest) =
      serve (placeDraw (.mrtest n (left - pre.length)) (countAttempt^[pre.length] s)) (answersThen vs rest) := by
  induction pre generalizing s left with
  | nil => rfl
  | cons a pre ih =>
    obtain ⟨hhead, htail⟩ := List.forall_mem_cons.1 hpre
    obtain ⟨hbase, hpass⟩ := hhead
    rw [List.length_cons] at hlen
    rw [List.cons_append, serve_mrtest_cons (hbase.lt.trans hn), mrtestAnswer_of_base hbase,
      mrtestRound_of_pass_more hpass (by omega)]
    refine (ih (s := countAttempt s) hn (by omega) htail).trans ?_
    rw [List.length_cons, Function.iterate_succ_apply, Nat.sub_sub, Nat.add_comm 1]

end

/-! ## The command of unit 4 -/

section
variable {rs1 : Reg} {s : State} {bases pre : List Nat} {rest : List Input}

theorem exec_mrtest_of_zero (h : s.ctx.rounds = 0#32) :
    exec (.mrtest rs1) s = .next (raiseParam .zeroRounds s) := by
  have hstart : mrtestStart s = raiseParam .zeroRounds s := if_pos h
  have hserve : serve (mrtestStart s) s.inputs = raiseParam .zeroRounds s := by
    rw [hstart, serve_raiseParam]
    rfl
  exact congrArg Host.Outcome.next hserve

theorem exec_mrtest_of_lookup {b : Bool} (hrounds : s.ctx.rounds ≠ 0#32) (h : primeLookup s.src1 = some b) :
    exec (.mrtest rs1) s = .next (finishBool b s) := by
  have hstart : mrtestStart s = finishBool b s := by rw [mrtestStart, if_neg hrounds, h]
  have hserve : serve (mrtestStart s) s.inputs = finishBool b s := by
    rw [hstart, serve_finishBool]
    rfl
  exact congrArg Host.Outcome.next hserve

theorem exec_mrtest_of_rounds (hrounds : s.ctx.rounds ≠ 0#32) (h : primeLookup s.src1 = none) :
    exec (.mrtest rs1) s = .next (serve (placeDraw (.mrtest s.src1 s.ctx.rounds.toNat) s) s.inputs) := by
  have hstart : mrtestStart s = placeDraw (.mrtest s.src1 s.ctx.rounds.toNat) s := by
    rw [mrtestStart, if_neg hrounds, h]
  exact congrArg (fun t => Host.Outcome.next (serve t s.inputs)) hstart

/-- Bases that pass, fewer than `ROUNDS`, and one more: that one decides how MRTEST goes on. -/
theorem exec_mrtest_of_last {last : Nat} (hn : 5 ≤ s.src1) (hodd : s.src1 % 2 = 1) (hlt : s.src1 < s.par.radix)
    (hlen : pre.length < s.ctx.rounds.toNat) (hpre : ∀ a ∈ pre, IsBase s.src1 a ∧ PassesRound s.src1 a)
    (hlast : last < s.par.radix) (hin : s.inputs = answersThen (pre ++ [last]) rest) :
    exec (.mrtest rs1) s = .next (serve
      (mrtestAnswer s.src1 (s.ctx.rounds.toNat - pre.length) last
        (placeDraw (.mrtest s.src1 (s.ctx.rounds.toNat - pre.length)) (countAttempt^[pre.length] s))) rest) := by
  have hrounds : s.ctx.rounds ≠ 0#32 := fun h0 => by simp [h0] at hlen
  have hpar : (countAttempt^[pre.length] s).par = s.par := by rw [iterate_countAttempt]
  have hpasses : ∀ a ∈ pre, IsBase s.src1 a ∧ roundPasses s.src1 a = true := fun a ha =>
    (hpre a ha).imp_right (roundPasses_iff (by omega) hodd a).2
  rw [exec_mrtest_of_rounds hrounds (primeLookup_of_odd hn hodd), hin, serve_mrtest_append hlt hlen hpasses,
    serve_mrtest_cons (hpar ▸ hlast)]
  rfl

/-- MRTEST accepts on the last of `ROUNDS` passing bases, or by the lookup (R166, R168, R172). -/
theorem exec_mrtest_of_accepts (hrounds : s.ctx.rounds ≠ 0#32) (hlt : s.src1 < s.par.radix)
    (hin : s.inputs = answersThen bases rest) (h : MrAccepts s.ctx.rounds.toNat s.src1 bases) :
    exec (.mrtest rs1) s = .next { finishBool true (countAttempt^[bases.length] s) with inputs := rest } := by
  obtain ⟨hsmall, rfl⟩ | ⟨hn, hodd, hlen, hall⟩ := h
  · obtain rfl : s.inputs = rest := hin
    exact exec_mrtest_of_lookup hrounds (primeLookup_of_two_or_three hsmall)
  · have hpos := toNat_pos_of_ne_zero hrounds
    obtain rfl | ⟨pre, last, rfl⟩ := bases.eq_nil_or_concat'
    · rw [List.length_nil] at hlen
      omega
    · obtain ⟨hpre, hlast⟩ := List.forall_mem_append.1 hall
      obtain ⟨hbase, hpass⟩ := hlast last (List.mem_singleton_self last)
      rw [List.length_append, List.length_singleton] at hlen
      rw [exec_mrtest_of_last hn hodd hlt (by omega) hpre (hbase.lt.trans hlt) hin, mrtestAnswer_of_base hbase,
        mrtestRound_of_pass_last ((roundPasses_iff (by omega) hodd last).2 hpass) (by omega), serve_finishBool,
        List.length_append, List.length_singleton, Function.iterate_succ_apply']
      rfl

/-- MRTEST rejects on the first base that does not pass, or by the lookup (R166, R168, R172). -/
theorem exec_mrtest_of_rejects (hrounds : s.ctx.rounds ≠ 0#32) (hlt : s.src1 < s.par.radix)
    (hin : s.inputs = answersThen bases rest) (h : MrRejects s.ctx.rounds.toNat s.src1 bases) :
    exec (.mrtest rs1) s = .next { finishBool false (countAttempt^[bases.length] s) with inputs := rest } := by
  obtain ⟨hlookup, rfl⟩ | ⟨hn, hodd, pre, last, rfl, hlen, hpre, hbase, hfail⟩ := h
  · obtain rfl : s.inputs = rest := hin
    exact exec_mrtest_of_lookup hrounds (primeLookup_of_small_or_even hlookup)
  · rw [exec_mrtest_of_last hn hodd hlt hlen hpre (hbase.lt.trans hlt) hin, mrtestAnswer_of_base hbase,
      mrtestRound_of_fail (mt (roundPasses_iff (by omega) hodd last).1 hfail), serve_finishBool,
      List.length_append, List.length_singleton, Function.iterate_succ_apply']
    rfl

/-- A base outside the range ends MRTEST before it is counted (R170, R245, log entry 17). -/
theorem exec_mrtest_of_bad_base {bad : Nat} (hn : 5 ≤ s.src1) (hodd : s.src1 % 2 = 1) (hlt : s.src1 < s.par.radix)
    (hlen : pre.length < s.ctx.rounds.toNat) (hpre : ∀ a ∈ pre, IsBase s.src1 a ∧ PassesRound s.src1 a)
    (hbad : bad < s.par.radix) (hbase : ¬ IsBase s.src1 bad) (hin : s.inputs = answersThen (pre ++ [bad]) rest) :
    exec (.mrtest rs1) s = .next { raise .entropyRange (countAttempt^[pre.length] s) with inputs := rest } := by
  rw [exec_mrtest_of_last hn hodd hlt hlen hpre hbad hin, mrtestAnswer_of_not_base hbase, serve_raise]
  rfl

end

end Sys2Proof.Machine

namespace Sys2Proof.Proofs

open Sys2Proof.Machine

/-- Settles O18: the round count is tested, then the lookup answers, then the bases are taken one by one; the loop of a
round is the loop-free round of R173, by the one decomposition of `n - 1`. -/
theorem mrtestResult : Obligations.MrtestResult := by
  unfold Obligations.MrtestResult
  intro rs1 s
  have hsrc1 := src1_accept_encode (i := .mrtest rs1) rfl s
  refine ⟨by simp [encode, toNat_formatC], fun hzero => ?_, fun bases rest b hrounds hlt hin hverdict => ?_,
    fun pre bad rest hn hodd hlt hlen hpre hbad hbase hin => ?_⟩
  · rw [exec_mrtest_of_zero (s := accept (encode (.mrtest rs1)) s) hzero]
    rfl
  · rw [← hsrc1] at hlt hverdict
    cases b with
    | true =>
      rw [exec_mrtest_of_accepts (s := accept (encode (.mrtest rs1)) s) hrounds hlt hin hverdict,
        iterate_countAttempt, accept_attempts, BitVec.zero_add]
      rfl
    | false =>
      rw [exec_mrtest_of_rejects (s := accept (encode (.mrtest rs1)) s) hrounds hlt hin (by simpa using hverdict),
        iterate_countAttempt, accept_attempts, BitVec.zero_add]
      rfl
  · rw [← hsrc1] at hn hodd hlt hpre hbase
    rw [exec_mrtest_of_bad_base (s := accept (encode (.mrtest rs1)) s) hn hodd hlt hlen hpre hbad hbase hin,
      iterate_countAttempt, accept_attempts, BitVec.zero_add]
    rfl

/-- Settles O19: no base in the range is a multiple of the prime, so each round passes, and MRTEST accepts by O18. -/
theorem primePassesEveryRound : Obligations.PrimePassesEveryRound := by
  unfold Obligations.PrimePassesEveryRound
  have hpass : ∀ n a : Nat, n.Prime → 5 ≤ n → IsBase n a → PassesRound n a ∧ roundPasses n a = true := by
    intro n a hp hn hbase
    have hodd : n % 2 = 1 := hp.eq_two_or_odd.resolve_left (by omega)
    have hpos : 0 < a := Nat.zero_lt_of_lt hbase.1
    have hround : PassesRound n a := passesRound_of_prime hp hodd (Nat.not_dvd_of_pos_of_lt hpos hbase.lt)
    exact ⟨hround, (roundPasses_iff (by omega) hodd a).2 hround⟩
  refine ⟨hpass, fun rs1 s bases rest hp hlt hrounds hlen hbases hin => ?_⟩
  obtain ⟨-, -, hresult, -⟩ := mrtestResult rs1 s
  refine hresult bases rest true hrounds hlt hin ?_
  by_cases hsmall : s.reg rs1 ≤ 3
  · rw [if_pos hsmall] at hlen
    have htwo := hp.two_le
    exact .inl ⟨by omega, List.eq_nil_of_length_eq_zero hlen⟩
  · rw [if_neg hsmall] at hlen
    have hfour : s.reg rs1 ≠ 4 := fun h4 => absurd (h4 ▸ hp) (by decide)
    have hn : 5 ≤ s.reg rs1 := by omega
    exact .inr ⟨hn, hp.eq_two_or_odd.resolve_left (by omega), hlen,
      fun a ha => ⟨hbases a ha, (hpass _ a hp hn (hbases a ha)).1⟩⟩

end Sys2Proof.Proofs

namespace Sys2Proof.Machine

/-! ## The shape of a random odd candidate (R186, R188) -/

section
variable {len u v : Nat}

/-- Only bits `L - 1` to 0 of the answer are looked at. -/
theorem randOdd_eq_of_mod_eq (h : v % 2 ^ len = u % 2 ^ len) : randOdd len v = randOdd len u := by
  unfold randOdd
  rw [h]

theorem randOdd_mod_two (len v : Nat) : randOdd len v % 2 = 1 := by
  simp [randOdd, Nat.or_mod_two_eq_one]

theorem randOdd_lt (h : 1 ≤ len) (v : Nat) : randOdd len v < 2 ^ len :=
  (bitlen_le_iff _ _).1 (bitlen_randOdd h v).le

theorem two_pow_le_randOdd (len v : Nat) : 2 ^ (len - 1) ≤ randOdd len v := Nat.right_le_or.trans Nat.left_le_or

theorem testBit_randOdd_top (len v : Nat) : (randOdd len v).testBit (len - 1) = true := by
  simp [randOdd, Nat.testBit_two_pow_self]

/-- A candidate keeps the bits of the answer below `L`, so with all of them set it is the greatest of `L` bits. -/
theorem randOdd_all_ones (h : 1 ≤ len) : randOdd len (2 ^ len - 1) = 2 ^ len - 1 := by
  have hpos := Nat.two_pow_pos len
  have hlt := randOdd_lt h (2 ^ len - 1)
  have hge : (2 ^ len - 1) % 2 ^ len ≤ randOdd len (2 ^ len - 1) := Nat.left_le_or.trans Nat.left_le_or
  rw [Nat.mod_eq_of_lt (by omega)] at hge
  omega

theorem randOdd_one (v : Nat) : randOdd 1 v = 1 := by
  have hlt := randOdd_lt le_rfl v
  have hge := two_pow_le_randOdd 1 v
  omega

/-- The forced top bit, the forced bottom bit, and `L - 2` bits of the answer between them: without its bottom bit the
candidate is a top bit above bits of the answer, compared bit by bit. -/
theorem randOdd_eq_add (h : 2 ≤ len) (v : Nat) :
    randOdd len v = 2 ^ (len - 1) + 1 + 2 * (v / 2 % 2 ^ (len - 2)) := by
  obtain ⟨k, rfl⟩ := Nat.exists_eq_add_of_le' h
  have hmid : v / 2 % 2 ^ k < 2 ^ k := Nat.mod_lt _ (Nat.two_pow_pos k)
  have hsum : 2 ^ k + v / 2 % 2 ^ k = 2 ^ k ||| v / 2 % 2 ^ k := by
    simpa using Nat.two_pow_add_eq_or_of_lt hmid 1
  have hhalf : randOdd (k + 2) v / 2 = 2 ^ k + v / 2 % 2 ^ k := by
    rw [hsum]
    refine Nat.eq_of_testBit_eq fun i => ?_
    simp only [randOdd, Nat.testBit_div_two, Nat.testBit_or, Nat.testBit_mod_two_pow, Nat.testBit_two_pow]
    grind
  have hodd := randOdd_mod_two (k + 2) v
  have hpow : 2 ^ (k + 1) = 2 * 2 ^ k := pow_succ' 2 k
  rw [Nat.add_sub_cancel, show k + 2 - 1 = k + 1 from rfl]
  omega

theorem randOdd_two (v : Nat) : randOdd 2 v = 3 := by
  rw [randOdd_eq_add le_rfl, Nat.sub_self, pow_zero, Nat.mod_one]
  rfl

theorem randOdd_draw_zero (h : 1 ≤ len) : randOdd len 0 = if len = 1 then 1 else 2 ^ (len - 1) + 1 := by
  split_ifs with hone
  · rw [hone, randOdd_one]
  · rw [randOdd_eq_add (by omega), Nat.zero_div, Nat.zero_mod, Nat.mul_zero, Nat.add_zero]

/-- The port carries `W` bits, which are enough for a candidate of at most `W` bits. -/
theorem randOdd_portWord {s : State} (h : len ≤ s.width) (v : Nat) : randOdd len (portWord s v) = randOdd len v :=
  randOdd_eq_of_mod_eq (Nat.mod_mod_of_dvd v (pow_dvd_pow 2 h))

end

/-! ## The trial-division filter (R191, R194) -/

theorem trialDivPass_iff {sieve : List Nat} {c : Nat} : trialDivPass sieve c = true ↔ ¬ SieveRejects sieve c := by
  simp [trialDivPass, SieveRejects, or_iff_not_imp_left]

theorem two_le_of_mem_sieve {par : Params} {q : Nat} (h : q ∈ par.sieve) : 2 ≤ q := by
  have hlegal := par.legal
  simp only [Config.legalParams, Bool.and_eq_true, List.all_eq_true] at hlegal
  obtain ⟨⟨-, hentries⟩, -⟩ := hlegal
  have hentry := hentries q h
  simp only [Config.primeEntry, Bool.and_eq_true, decide_eq_true_eq] at hentry
  exact hentry.1

/-! ## RANDODD and TRIALDIV -/

section
variable {rd rs1 : Reg} {s : State} {v : Nat} {rest : List Input}

theorem exec_randodd_of_bad_bits (h : s.ctx.bits.toNat = 0 ∨ s.width < s.ctx.bits.toNat) :
    exec (.randodd rd) s = .next (raiseParam .badBitLength s) := by
  have hstart : startOf (.randodd rd) s = raiseParam .badBitLength s := if_pos h
  rw [exec_eq_serve, hstart, serve_raiseParam]
  rfl

theorem exec_randodd_of_bits (hpos : 1 ≤ s.ctx.bits.toNat) (hle : s.ctx.bits.toNat ≤ s.width)
    (hin : s.inputs = .answer v :: rest) :
    exec (.randodd rd) s = .next { finishValue rd (randOdd s.ctx.bits.toNat v) s with inputs := rest } := by
  have hstart : startOf (.randodd rd) s = placeDraw (.randodd rd s.ctx.bits.toNat) s := if_neg (by omega)
  have hword : randOdd s.ctx.bits.toNat (portWord (placeDraw (.randodd rd s.ctx.bits.toNat) s) v) =
      randOdd s.ctx.bits.toNat v := randOdd_portWord hle v
  rw [exec_eq_serve, hstart, hin, serve_answer (placeDraw_engine ..), resume, randoddAnswer, hword, serve_finishValue]
  rfl

theorem exec_trialdiv : exec (.trialdiv rs1) s = .next (finishBool (trialDivPass s.par.sieve s.src1) s) := rfl

end

end Sys2Proof.Machine

namespace Sys2Proof.Proofs

open Sys2Proof.Machine

/-- Settles O20: the draw is placed for a legal `BITS` alone, and the one answer is the result. -/
theorem randoddResult : Obligations.RandoddResult := by
  unfold Obligations.RandoddResult
  intro rd s
  refine ⟨by simp [encode, toNat_formatC], fun hbits => ?_, fun v rest hpos hle hin => ?_⟩
  · rw [exec_randodd_of_bad_bits (s := accept (encode (.randodd rd)) s) hbits]
    rfl
  · rw [exec_randodd_of_bits (s := accept (encode (.randodd rd)) s) hpos hle hin]
    rfl

/-- Settles O21: the forced bits bound the candidate on both sides, and the bits between them are those of the draw. -/
theorem candidateShape : Obligations.CandidateShape := by
  unfold Obligations.CandidateShape
  intro len v hlen
  exact ⟨two_pow_le_randOdd len v, randOdd_lt hlen v, randOdd_mod_two len v, testBit_randOdd_top len v,
    bitlen_randOdd hlen v, fun htwo => randOdd_eq_add htwo v, fun hone => hone ▸ randOdd_one v,
    fun htwo => htwo ▸ randOdd_two v, randOdd_all_ones hlen, randOdd_draw_zero hlen, fun u => randOdd_eq_of_mod_eq⟩

/-- Settles O22: the filter on the latched source is the Boolean. -/
theorem trialdivResult : Obligations.TrialdivResult := by
  unfold Obligations.TrialdivResult
  intro rs1 s
  have hsrc1 := src1_accept_encode (i := .trialdiv rs1) rfl s
  refine ⟨by simp [encode, toNat_formatC], trialDivPass s.par.sieve (s.reg rs1), trialDivPass_iff, ?_⟩
  rw [exec_trialdiv, hsrc1]
  rfl

/-- Settles O23: a listed number that divides a prime or 1 is that number, for it is at least 2. -/
theorem filterNeverRejectsAPrime : Obligations.FilterNeverRejectsAPrime := by
  unfold Obligations.FilterNeverRejectsAPrime
  intro par c hreject
  obtain ⟨q, hq, hmod, hne⟩ : SieveRejects par.sieve c := by
    by_contra hpass
    simp [trialDivPass_iff.2 hpass] at hreject
  have htwo := two_le_of_mem_sieve hq
  have hdvd : q ∣ c := Nat.dvd_of_mod_eq_zero hmod
  refine ⟨fun hp => ?_, ?_⟩
  · obtain hone | hself := hp.eq_one_or_self_of_dvd q hdvd
    · omega
    · exact hne hself.symm
  · rintro rfl
    have hone := Nat.dvd_one.1 hdvd
    omega

end Sys2Proof.Proofs

namespace Sys2Proof.Machine

/-! ## The predicate (R196) -/

/-- A selector bit that is 0 asks for nothing. -/
theorem not_or_eq_true_iff (selected passes : Bool) :
    (!selected || passes) = true ↔ (selected = true → passes = true) := by
  cases selected <;> simp

theorem natCast_absDiff (a b : Nat) : ((absDiff a b : Nat) : Int) = |(a : Int) - (b : Int)| := by
  unfold absDiff
  rcases Nat.le_total a b with h | h
  · rw [abs_of_nonpos (by omega)]
    omega
  · rw [abs_of_nonneg (by omega)]
    omega

theorem pred_iff_meetsPredicate {s : State} (h : s.ctx.predctl = s.predctl) (c : Nat) :
    s.pred c = true ↔ MeetsPredicate s c := by
  have hgap : s.pg ≤ absDiff c s.po ↔ (s.pg : Int) ≤ |(c : Int) - (s.po : Int)| := by
    rw [← natCast_absDiff, Int.ofNat_le]
  simp only [State.pred, predicate, h, Bool.and_eq_true, not_or_eq_true_iff, decide_eq_true_iff, beq_iff_eq, hgap,
    and_assoc]
  rfl

/-! ## A draw and its answer in PRIMEGEN (R80, R201)

An operation of the search overwrites the engine's place, so it does not depend on the draw it follows. -/

section
variable {s : State} {rd : Reg} {len c left a v : Nat} {vs : List Nat} {rest : List Input}

theorem answersThen_append (us vs : List Nat) (rest : List Input) :
    answersThen (us ++ vs) rest = answersThen us (answersThen vs rest) := by
  simp [answersThen]

theorem serve_primegenCandidate (h : len ≤ s.width) :
    serve (placeDraw (.primegenCandidate rd len) s) (answersThen (v :: vs) rest) =
      serve (primegenFilter rd len (randOdd len v) s) (answersThen vs rest) := by
  have hword : randOdd len (portWord s v) = randOdd len v := randOdd_portWord h v
  rw [← hword]
  exact serve_answer (placeDraw_engine ..) v _

theorem serve_primegenBase (hbase : IsBase c a) (hc : c < s.par.radix) :
    serve (placeDraw (.primegenBase rd len c left) s) (answersThen (a :: vs) rest) =
      serve (primegenRound rd len c left a s) (answersThen vs rest) := by
  have hword : portWord s a = a := portWord_of_lt (hbase.lt.trans hc)
  have hround : primegenBase rd len c left (portWord s a) s = primegenRound rd len c left a s := by
    rw [hword]
    exact if_pos hbase
  rw [← hround]
  exact serve_answer (placeDraw_engine ..) a _

theorem primegenRound_of_fail (h : ¬ roundPasses c a = true) :
    primegenRound rd len c left a s = primegenAttempt rd len s := if_neg h

theorem primegenRound_of_pass_last (h : roundPasses c a = true) (hleft : left ≤ 1) :
    primegenRound rd len c left a s = primegenJudge rd len c s := (if_pos h).trans (if_pos hleft)

theorem primegenRound_of_pass_more (h : roundPasses c a = true) (hleft : 1 < left) :
    primegenRound rd len c left a s = placeDraw (.primegenBase rd len c (left - 1)) s :=
  (if_pos h).trans (if_neg (Nat.not_le.2 hleft))

end

/-! ## Miller-Rabin on a candidate, with its bases answered (R166, R204) -/

section
variable {s : State} {rd : Reg} {len c left : Nat} {bases : List Nat}

/-- All the bases left pass, so the predicate decides. -/
theorem serve_primegenBase_of_pass (hc : c < s.par.radix) (hpos : 1 ≤ left) (hlen : bases.length = left)
    (hall : ∀ a ∈ bases, IsBase c a ∧ roundPasses c a = true) (rest : List Input) :
    serve (placeDraw (.primegenBase rd len c left) s) (answersThen bases rest) =
      serve (primegenJudge rd len c s) rest := by
  induction bases generalizing left with
  | nil =>
    rw [List.length_nil] at hlen
    omega
  | cons a bases ih =>
    obtain ⟨⟨hbase, hpass⟩, htail⟩ := List.forall_mem_cons.1 hall
    rw [List.length_cons] at hlen
    rw [serve_primegenBase hbase hc]
    by_cases hlast : left ≤ 1
    · obtain rfl : bases = [] := List.eq_nil_of_length_eq_zero (by omega)
      rw [primegenRound_of_pass_last hpass hlast]
      rfl
    · rw [primegenRound_of_pass_more hpass (by omega), ih (by omega) (by omega) htail]

/-- Bases that pass and one that does not, no more than are left, bring the search to its next attempt. -/
theorem serve_primegenBase_of_fail {pre : List Nat} {b : Nat} (hc : c < s.par.radix) (hlen : pre.length < left)
    (hpre : ∀ a ∈ pre, IsBase c a ∧ roundPasses c a = true) (hbase : IsBase c b) (hfail : ¬ roundPasses c b = true)
    (rest : List Input) :
    serve (placeDraw (.primegenBase rd len c left) s) (answersThen (pre ++ [b]) rest) =
      serve (primegenAttempt rd len s) rest := by
  induction pre generalizing left with
  | nil =>
    rw [List.nil_append, serve_primegenBase hbase hc, primegenRound_of_fail hfail]
    rfl
  | cons a pre ih =>
    obtain ⟨⟨hbase', hpass⟩, htail⟩ := List.forall_mem_cons.1 hpre
    rw [List.length_cons] at hlen
    rw [List.cons_append, serve_primegenBase hbase' hc, primegenRound_of_pass_more hpass (by omega),
      ih (by omega) htail]

theorem serve_primegenTest_of_accepts (hc : c < s.par.radix) (hrounds : 1 ≤ s.ctx.rounds.toNat)
    (h : MrAccepts s.ctx.rounds.toNat c bases) (rest : List Input) :
    serve (primegenTest rd len c s) (answersThen bases rest) = serve (primegenJudge rd len c s) rest := by
  obtain ⟨hsmall, rfl⟩ | ⟨hn, hodd, hlen, hall⟩ := h
  · rw [primegenTest, primeLookup_of_two_or_three hsmall]
    rfl
  · rw [primegenTest, primeLookup_of_odd hn hodd]
    have hround : ∀ a, roundPasses c a = true ↔ PassesRound c a := roundPasses_iff (by omega) hodd
    exact serve_primegenBase_of_pass hc hrounds hlen (fun a ha => (hall a ha).imp_right (hround a).2) rest

theorem serve_primegenTest_of_rejects (hc : c < s.par.radix) (h : MrRejects s.ctx.rounds.toNat c bases)
    (rest : List Input) :
    serve (primegenTest rd len c s) (answersThen bases rest) = serve (primegenAttempt rd len s) rest := by
  obtain ⟨hlookup, rfl⟩ | ⟨hn, hodd, pre, b, rfl, hlen, hpre, hbase, hfail⟩ := h
  · rw [primegenTest, primeLookup_of_small_or_even hlookup]
    rfl
  · rw [primegenTest, primeLookup_of_odd hn hodd]
    have hround : ∀ a, roundPasses c a = true ↔ PassesRound c a := roundPasses_iff (by omega) hodd
    exact serve_primegenBase_of_fail hc hlen (fun a ha => (hpre a ha).imp_right (hround a).2) hbase
      (mt (hround b).1 hfail) rest

end

/-! ## One attempt of the search with its draws answered (R201, R203, R204) -/

/-- What a search for a prime of `len` bits runs with: the configuration registers as they were latched (R47), what the
checks of R201 have let pass, and a length within the port's `W` bits. -/
structure State.Searches (len : Nat) (s : State) : Prop where
  rounds : s.ctx.rounds = s.rounds
  predctl : s.ctx.predctl = s.predctl
  sieveEn : s.ctx.sieveEn = s.sieveEn
  rounds_pos : 1 ≤ s.ctx.rounds.toNat
  len_pos : 1 ≤ len
  len_le : len ≤ s.width

theorem State.Searches.countAttempt {len : Nat} {s : State} (h : s.Searches len) : (countAttempt s).Searches len :=
  { h with }

theorem State.Searches.with_attempts {len : Nat} {s : State} (h : s.Searches len) (n : Word) :
    ({ s with attempts := n } : State).Searches len :=
  { h with }

section
variable {s : State} {rd : Reg} {len c : Nat} {d : List Nat} (h : s.Searches len)
include h

/-- A candidate has at most `W` bits. -/
theorem State.Searches.randOdd_lt_radix (v : Nat) : randOdd len v < s.par.radix :=
  (randOdd_lt h.len_pos v).trans_le (Nat.pow_le_pow_right (by decide) h.len_le)

theorem primegenFilter_of_rejects (hon : s.sieveEn = true) (hrej : SieveRejects s.par.sieve c) :
    primegenFilter rd len c s = primegenAttempt rd len s := by
  refine if_pos ?_
  have hfails : ¬ trialDivPass s.par.sieve c = true := fun hpass => trialDivPass_iff.1 hpass hrej
  simp [h.sieveEn, hon, hfails]

theorem primegenFilter_of_passes (hpass : s.sieveEn = true → ¬ SieveRejects s.par.sieve c) :
    primegenFilter rd len c s = primegenTest rd len c s := by
  refine if_neg ?_
  simpa [h.sieveEn] using fun hon => trialDivPass_iff.2 (hpass hon)

theorem primegenJudge_of_meets (hmeets : MeetsPredicate s c) : primegenJudge rd len c s = finishValue rd c s :=
  if_pos ((pred_iff_meetsPredicate h.predctl c).2 hmeets)

theorem primegenJudge_of_not_meets (hmeets : ¬ MeetsPredicate s c) :
    primegenJudge rd len c s = primegenAttempt rd len s :=
  if_neg (mt (pred_iff_meetsPredicate h.predctl c).1 hmeets)

/-- The draws of a rejected attempt bring the search to the next one. -/
theorem serve_primegenCandidate_of_rejected (hd : AttemptRejected s len d) (rest : List Input) :
    serve (placeDraw (.primegenCandidate rd len) s) (answersThen d rest) = serve (primegenAttempt rd len s) rest := by
  obtain ⟨v, bases, rfl, hverdict⟩ := hd
  have hc := h.randOdd_lt_radix v
  rw [serve_primegenCandidate h.len_le]
  rw [← h.rounds] at hverdict
  obtain ⟨hon, hsieve, rfl⟩ | ⟨hfilter, hmr⟩ := hverdict
  · rw [primegenFilter_of_rejects h hon hsieve]
    rfl
  · rw [primegenFilter_of_passes h hfilter]
    obtain hrej | ⟨hacc, hnot⟩ := hmr
    · rw [serve_primegenTest_of_rejects hc hrej]
    · rw [serve_primegenTest_of_accepts hc h.rounds_pos hacc, primegenJudge_of_not_meets h hnot]

/-- The draws of an accepted attempt end the search. -/
theorem serve_primegenCandidate_of_accepted (hd : AttemptAccepted s len c d) (rest : List Input) :
    serve (placeDraw (.primegenCandidate rd len) s) (answersThen d rest) =
      { finishValue rd c s with inputs := rest } := by
  obtain ⟨v, bases, rfl, rfl, hfilter, hacc, hmeets⟩ := hd
  rw [← h.rounds] at hacc
  rw [serve_primegenCandidate h.len_le, primegenFilter_of_passes h hfilter,
    serve_primegenTest_of_accepts (h.randOdd_lt_radix v) h.rounds_pos hacc, primegenJudge_of_meets h hmeets,
    serve_finishValue]

end

/-! ## The search (R201, R205) -/

section
variable {s : State} {rd rs1 : Reg} {len c : Nat} {acc : List Nat} {rej : List (List Nat)} {rest : List Input}

theorem primegenAttempt_of_lt (h : s.attempts.toNat < s.ctx.limit.toNat) :
    primegenAttempt rd len s = placeDraw (.primegenCandidate rd len) (countAttempt s) := if_pos h

theorem primegenAttempt_of_limit_le (h : s.ctx.limit.toNat ≤ s.attempts.toNat) :
    primegenAttempt rd len s = raise (.primeSearchExhausted s.attempts) s := if_neg (Nat.not_lt.2 h)

/-- Rejected attempts within `LIMIT` bring the search to the attempt after them, each of them counted. -/
theorem serve_primegenAttempt_of_rejected (h : s.Searches len) (hrej : ∀ d ∈ rej, AttemptRejected s len d)
    (hlimit : s.attempts.toNat + rej.length ≤ s.ctx.limit.toNat) (rest : List Input) :
    serve (primegenAttempt rd len s) (answersThen rej.flatten rest) =
      serve (primegenAttempt rd len (countAttempt^[rej.length] s)) rest := by
  induction rej generalizing s with
  | nil => rfl
  | cons d rej ih =>
    obtain ⟨hd, htail⟩ := List.forall_mem_cons.1 hrej
    rw [List.length_cons] at hlimit
    have hlt : s.attempts.toNat < s.ctx.limit.toNat := by omega
    have hcount : (countAttempt s).attempts.toNat = s.attempts.toNat + 1 := toNat_add_one_of_lt hlt s.ctx.limit.isLt
    rw [List.flatten_cons, answersThen_append, primegenAttempt_of_lt hlt,
      serve_primegenCandidate_of_rejected h.countAttempt hd,
      ih h.countAttempt htail (by rw [hcount, countAttempt_ctx]; omega)]
    rfl

theorem exec_primegen_of_zero_start (h : s.src1 = 0) :
    exec (.primegen rd rs1) s = .next (raiseParam .badBitLength s) := by
  have hstart : startOf (.primegen rd rs1) s = raiseParam .badBitLength s := if_pos ((bitlen_eq_zero_iff _).2 h)
  rw [exec_eq_serve, hstart, serve_raiseParam]
  rfl

theorem exec_primegen_of_zero_rounds (h : s.src1 ≠ 0) (hrounds : s.ctx.rounds = 0#32) :
    exec (.primegen rd rs1) s = .next (raiseParam .zeroRounds s) := by
  have hstart : startOf (.primegen rd rs1) s = raiseParam .zeroRounds s :=
    (if_neg (mt (bitlen_eq_zero_iff _).1 h)).trans (if_pos hrounds)
  rw [exec_eq_serve, hstart, serve_raiseParam]
  rfl

theorem exec_primegen_of_start (h : s.src1 ≠ 0) (hrounds : s.ctx.rounds ≠ 0#32) :
    exec (.primegen rd rs1) s = .next (serve (primegenAttempt rd (bitlen s.src1) s) s.inputs) := by
  have hstart : startOf (.primegen rd rs1) s = primegenAttempt rd (bitlen s.src1) s :=
    (if_neg (mt (bitlen_eq_zero_iff _).1 h)).trans (if_neg hrounds)
  rw [exec_eq_serve, hstart]

/-- A start that is not 0, with `ROUNDS` not 0, is searched from. -/
theorem searches_accept (hstart : s.reg rs1 ≠ 0) (hlt : s.reg rs1 < s.par.radix) (hrounds : s.rounds ≠ 0#32)
    (cw : Word) : (accept cw s).Searches (bitlen (s.reg rs1)) where
  rounds := rfl
  predctl := rfl
  sieveEn := rfl
  rounds_pos := toNat_pos_of_ne_zero hrounds
  len_pos := Nat.pos_of_ne_zero (mt (bitlen_eq_zero_iff _).1 hstart)
  len_le := (bitlen_le_iff _ _).2 hlt

/-- PRIMEGEN after rejected attempts within `LIMIT`: all of them are counted, and the next is to begin. -/
theorem exec_primegen_of_rejected (hstart : s.reg rs1 ≠ 0) (hlt : s.reg rs1 < s.par.radix) (hrounds : s.rounds ≠ 0#32)
    (hrej : ∀ d ∈ rej, AttemptRejected s (bitlen (s.reg rs1)) d) (hlimit : rej.length ≤ s.limit.toNat)
    (hin : s.inputs = answersThen rej.flatten rest) :
    exec (.primegen rd rs1) (accept (encode (.primegen rd rs1)) s) = .next
      (serve (primegenAttempt rd (bitlen (s.reg rs1))
        { accept (encode (.primegen rd rs1)) s with attempts := BitVec.ofNat 32 rej.length }) rest) := by
  have hsrc1 := src1_accept_encode (i := .primegen rd rs1) rfl s
  have hsearch := searches_accept hstart hlt hrounds (encode (.primegen rd rs1))
  have hbudget : (accept (encode (.primegen rd rs1)) s).attempts.toNat + rej.length ≤
      (accept (encode (.primegen rd rs1)) s).ctx.limit.toNat := by simpa using hlimit
  rw [exec_primegen_of_start (by rwa [hsrc1]) hrounds, hsrc1, accept_inputs, hin,
    serve_primegenAttempt_of_rejected hsearch hrej hbudget, iterate_countAttempt, accept_attempts, BitVec.zero_add]

end

end Sys2Proof.Machine

namespace Sys2Proof.Proofs

open Sys2Proof.Machine

/-- Settles O26: the start is tested first, then the round count; neither fault follows a draw. -/
theorem primegenParameterFaults : Obligations.PrimegenParameterFaults := by
  unfold Obligations.PrimegenParameterFaults
  intro rd rs1 s
  have hsrc1 := src1_accept_encode (i := .primegen rd rs1) rfl s
  refine ⟨by simp [encode, toNat_formatC], fun hzero => ?_, fun hstart hzero => ?_⟩
  · rw [exec_primegen_of_zero_start (hsrc1.trans hzero)]
    rfl
  · rw [exec_primegen_of_zero_rounds (by rwa [hsrc1]) hzero]
    rfl

/-- Settles O24: each rejected attempt leads to the next, and the accepted one ends the search. -/
theorem primegenFindsCandidate : Obligations.PrimegenFindsCandidate := by
  unfold Obligations.PrimegenFindsCandidate
  intro rd rs1 s rej acc c rest hstart hlt hrounds hrej hlimit hacc hin
  rw [answersThen_append] at hin
  rw [exec_primegen_of_rejected hstart hlt hrounds hrej hlimit.le hin]
  have hsearch := searches_accept hstart hlt hrounds (encode (.primegen rd rs1))
  have hcount : (BitVec.ofNat 32 rej.length).toNat = rej.length :=
    Nat.mod_eq_of_lt (hlimit.trans s.limit.isLt)
  rw [primegenAttempt_of_lt (hcount.trans_lt hlimit),
    serve_primegenCandidate_of_accepted (hsearch.with_attempts _).countAttempt hacc, BitVec.ofNat_add]
  rfl

/-- Settles O25: `LIMIT` rejected attempts are counted, and no other is begun. -/
theorem primegenExhausted : Obligations.PrimegenExhausted := by
  unfold Obligations.PrimegenExhausted
  intro rd rs1 s rej rest hstart hlt hrounds hrej hlimit hin
  have hcount : BitVec.ofNat 32 rej.length = s.limit := by rw [hlimit, BitVec.ofNat_toNat, BitVec.setWidth_eq]
  rw [exec_primegen_of_rejected hstart hlt hrounds hrej hlimit.le hin, hcount, primegenAttempt_of_limit_le le_rfl,
    serve_raise]
  rfl

end Sys2Proof.Proofs

namespace Sys2Proof.Machine

/-! ## The answers a run takes

Beside the state where a command stops, the answers it has taken: they are the inputs that are gone. -/

/-- The induction over the answers a command takes, with the list of those taken so far. -/
theorem serve_induction_taken {P : List Nat → State → Prop}
    (hstep : ∀ taken s w v, P taken s → s.engine = .waiting w → P (taken ++ [v]) (resume w (portWord s v) s))
    (hinputs : ∀ taken s l, P taken s → P taken { s with inputs := l })
    {taken : List Nat} {s : State} (l : List Input) (h : P taken s) :
    ∃ vs, l = answersThen vs (serve s l).inputs ∧ P (taken ++ vs) (serve s l) := by
  have hstop : ∀ {taken s l}, P taken s → serve s l = { s with inputs := l } →
      ∃ vs, l = answersThen vs (serve s l).inputs ∧ P (taken ++ vs) (serve s l) := by
    intro taken s l h hserve
    rw [hserve]
    exact ⟨[], rfl, by simpa using hinputs taken s l h⟩
  induction l generalizing taken s with
  | nil => exact hstop h rfl
  | cons inp rest ih =>
    cases inp with
    | answer v =>
      by_cases hw : ∃ w, s.engine = .waiting w
      · obtain ⟨w, hw⟩ := hw
        obtain ⟨vs, hvs, hP⟩ := ih (hstep taken s w v h hw)
        rw [serve_answer hw]
        exact ⟨v :: vs, congrArg (Input.answer v :: ·) hvs, by simpa using hP⟩
      · exact hstop h (serve_of_not_waiting (fun w hs => hw ⟨w, hs⟩) _)
    | tick | access | lateAnswer | sameCycle | rstN => exact hstop h rfl

/-! ## What holds throughout a search (R201, R208) -/

/-- A candidate of `len` bits that the filter has let pass (R186, R203). -/
def State.Admits (s : State) (len c : Nat) : Prop :=
  c % 2 = 1 ∧ bitlen c = len ∧ (s.ctx.sieveEn = true → trialDivPass s.par.sieve c = true)

/-- Miller-Rabin accepts `c` under bases that are the last answers taken, as the port carries them (R204). -/
def State.AcceptsByLast (s : State) (c : Nat) (taken : List Nat) : Prop :=
  ∃ pre vs, taken = pre ++ vs ∧ MrAccepts s.ctx.rounds.toNat c (vs.map (portWord s))

/-- The last answers taken are bases under which `c` has passed all rounds but `left` (R166, R204). -/
def State.PassesByLast (s : State) (c left : Nat) (taken : List Nat) : Prop :=
  ∃ pre vs, taken = pre ++ vs ∧ vs.length + left = s.ctx.rounds.toNat ∧
    ∀ a ∈ vs.map (portWord s), IsBase c a ∧ PassesRound c a

/-- Where a search for a prime of `len` bits can stand. -/
def Wait.OfSearch (s : State) (rd : Reg) (len : Nat) (taken : List Nat) : Wait → Prop
  | .primegenCandidate rd' len' => rd' = rd ∧ len' = len
  | .primegenBase rd' len' c left =>
    rd' = rd ∧ len' = len ∧ s.Admits len c ∧ primeLookup c = none ∧ 1 ≤ left ∧ s.PassesByLast c left taken
  | .randodd _ _ => False
  | .mrtest _ _ => False
  | .genfind _ _ _ => False

/-- A search with these answers taken: where it stands at a draw, and what it has found at its successful end. -/
structure State.SearchedBy (rd : Reg) (len : Nat) (taken : List Nat) (s : State) : Prop where
  waiting : ∀ w, s.engine = .waiting w → w.OfSearch s rd len taken
  done : s.engine = .done →
    s.Admits len (s.reg rd) ∧ s.pred (s.reg rd) = true ∧ s.AcceptsByLast (s.reg rd) taken

/-- No move changes the latched context (R47). -/
theorem MovesTo.ctx_eq {rd? : Option Reg} {s t : State} (h : MovesTo rd? s t) : t.ctx = s.ctx := by
  obtain ⟨-, -, -, -, -, -, -, -, -, -, hctx, -⟩ := h.frame
  exact hctx

section
variable {s : State} {rd : Reg} {len c left : Nat} {taken : List Nat}

theorem primeLookup_eq_some_true (h : primeLookup c = some true) : c = 2 ∨ c = 3 := by
  unfold primeLookup at h
  split_ifs at h
  · simpa using h
  · simp at h

theorem searchedBy_raise (flt : CommandFault) : (raise flt s).SearchedBy rd len taken :=
  ⟨fun w hw => by simp at hw, fun hdone => by simp at hdone⟩

theorem searchedBy_placeDraw {w : Wait} (h : w.OfSearch s rd len taken) : (placeDraw w s).SearchedBy rd len taken := by
  refine ⟨fun w' hw' => ?_, fun hdone => by simp at hdone⟩
  obtain rfl : w = w' := by simpa using hw'
  cases w <;> exact h

theorem searchedBy_primegenAttempt (s : State) (rd : Reg) (len : Nat) (taken : List Nat) :
    (primegenAttempt rd len s).SearchedBy rd len taken := by
  unfold primegenAttempt
  split_ifs
  · exact searchedBy_placeDraw ⟨rfl, rfl⟩
  · exact searchedBy_raise _

theorem searchedBy_primegenJudge (hc : s.Admits len c) (hbases : s.AcceptsByLast c taken) :
    (primegenJudge rd len c s).SearchedBy rd len taken := by
  unfold primegenJudge
  split_ifs with hpred
  · refine ⟨fun w hw => by simp at hw, fun _ => ?_⟩
    rw [reg_finishValue_self]
    exact ⟨hc, hpred, hbases⟩
  · exact searchedBy_primegenAttempt ..

theorem searchedBy_primegenTest (hrounds : 1 ≤ s.ctx.rounds.toNat) (hc : s.Admits len c) :
    (primegenTest rd len c s).SearchedBy rd len taken := by
  unfold primegenTest
  split
  next hprime =>
    exact searchedBy_primegenJudge hc ⟨taken, [], by simp, .inl ⟨primeLookup_eq_some_true hprime, rfl⟩⟩
  · exact searchedBy_primegenAttempt ..
  next hlookup => exact searchedBy_placeDraw ⟨rfl, rfl, hc, hlookup, hrounds, taken, [], by simp, by simp, by simp⟩

theorem searchedBy_primegenCandidate (hrounds : 1 ≤ s.ctx.rounds.toNat) (hlen : 1 ≤ len) (v : Nat) :
    (primegenCandidate rd len v s).SearchedBy rd len taken := by
  unfold primegenCandidate primegenFilter
  split_ifs with hfilter
  · exact searchedBy_primegenAttempt ..
  · refine searchedBy_primegenTest hrounds ⟨randOdd_mod_two len v, bitlen_randOdd hlen v, fun hon => ?_⟩
    simpa [hon] using hfilter

/-- A base that passes is the last of the answers taken with it. -/
theorem State.PassesByLast.concat {v : Nat} (h : s.PassesByLast c (left + 1) taken) (hbase : IsBase c (portWord s v))
    (hpass : PassesRound c (portWord s v)) : s.PassesByLast c left (taken ++ [v]) := by
  obtain ⟨pre, vs, rfl, hlen, hall⟩ := h
  refine ⟨pre, vs ++ [v], List.append_assoc .., ?_, ?_⟩
  · rw [List.length_append, List.length_singleton]
    omega
  · rw [List.map_append]
    exact List.forall_mem_append.2 ⟨hall, by simpa using ⟨hbase, hpass⟩⟩

theorem State.PassesByLast.acceptsByLast (h : s.PassesByLast c 0 taken) (hn : 5 ≤ c) (hodd : c % 2 = 1) :
    s.AcceptsByLast c taken := by
  obtain ⟨pre, vs, htaken, hlen, hall⟩ := h
  exact ⟨pre, vs, htaken, .inr ⟨hn, hodd, by simpa using hlen, hall⟩⟩

theorem searchedBy_primegenRound {v : Nat} (hc : s.Admits len c) (hlookup : primeLookup c = none) (hleft : 1 ≤ left)
    (hlast : s.PassesByLast c left taken) (hbase : IsBase c (portWord s v)) :
    (primegenRound rd len c left (portWord s v) s).SearchedBy rd len (taken ++ [v]) := by
  have hodd : c % 2 = 1 := hc.1
  have hn := five_le_of_primeLookup_none hlookup
  have hround : ∀ a, roundPasses c a = true ↔ PassesRound c a := roundPasses_iff (by omega) hodd
  obtain ⟨k, rfl⟩ := Nat.exists_eq_add_of_le' hleft
  unfold primegenRound
  split_ifs with hpass hend
  · have hnext := hlast.concat hbase ((hround _).1 hpass)
    obtain rfl : k = 0 := by omega
    exact searchedBy_primegenJudge hc (hnext.acceptsByLast hn hodd)
  · exact searchedBy_placeDraw
      ⟨rfl, rfl, hc, hlookup, by omega, hlast.concat hbase ((hround _).1 hpass)⟩
  · exact searchedBy_primegenAttempt ..

theorem searchedBy_resume {w : Wait} (hrounds : 1 ≤ s.ctx.rounds.toNat) (hlen : 1 ≤ len)
    (hw : w.OfSearch s rd len taken) (v : Nat) :
    (resume w (portWord s v) s).SearchedBy rd len (taken ++ [v]) := by
  cases w with
  | primegenCandidate rd' len' =>
    obtain ⟨rfl, rfl⟩ := hw
    exact searchedBy_primegenCandidate hrounds hlen _
  | primegenBase rd' len' c left =>
    obtain ⟨rfl, rfl, hc, hlookup, hleft, hlast⟩ := hw
    simp only [resume, primegenBase, rangeAnswer]
    split_ifs with hbase
    · exact searchedBy_primegenRound hc hlookup hleft hlast hbase
    · exact searchedBy_raise _
  | randodd | mrtest | genfind => exact hw.elim

/-- What is said of a search is said of the answers it takes with it. -/
theorem exists_taken_of_serve (hrounds : 1 ≤ s.ctx.rounds.toNat) (hlen : 1 ≤ len) (h : s.SearchedBy rd len [])
    (l : List Input) :
    ∃ vs, l = answersThen vs (serve s l).inputs ∧ (serve s l).SearchedBy rd len vs := by
  have hmain := serve_induction_taken (P := fun taken s => 1 ≤ s.ctx.rounds.toNat ∧ s.SearchedBy rd len taken)
    (taken := []) (s := s) ?_ ?_ l ⟨hrounds, h⟩
  · obtain ⟨vs, hvs, -, hsearched⟩ := hmain
    exact ⟨vs, hvs, hsearched⟩
  · rintro taken s w v ⟨hrounds, hs⟩ hw
    have hctx : (resume w (portWord s v) s).ctx = s.ctx := (movesTo_resume ..).ctx_eq
    exact ⟨hctx ▸ hrounds, searchedBy_resume hrounds hlen (hs.waiting w hw) v⟩
  · rintro taken s l ⟨hrounds, hs⟩
    exact ⟨hrounds, fun w hw => by cases w <;> exact hs.waiting _ hw, hs.done⟩

/-- A search that begins has taken no answer; one that faults at its checks finds nothing. -/
theorem searchedBy_of_exec_primegen {rs1 : Reg} {t : State} (h : exec (.primegen rd rs1) s = .next t)
    (hdone : t.engine = .done) :
    ∃ vs, s.inputs = answersThen vs t.inputs ∧ t.SearchedBy rd (bitlen s.src1) vs := by
  by_cases hstart : s.src1 = 0
  · rw [exec_primegen_of_zero_start hstart] at h
    cases h
    cases hdone
  by_cases hrounds : s.ctx.rounds = 0#32
  · rw [exec_primegen_of_zero_rounds hstart hrounds] at h
    cases h
    cases hdone
  rw [exec_primegen_of_start hstart hrounds] at h
  cases h
  have hctx : (primegenAttempt rd (bitlen s.src1) s).ctx = s.ctx := (movesTo_primegenAttempt ..).ctx_eq
  exact exists_taken_of_serve (hctx ▸ toNat_pos_of_ne_zero hrounds)
    (Nat.pos_of_ne_zero (mt (bitlen_eq_zero_iff _).1 hstart)) (searchedBy_primegenAttempt ..) s.inputs

end

end Sys2Proof.Machine

namespace Sys2Proof.Proofs

open Sys2Proof.Machine

/-- Settles O27: what the search keeps at each draw says at its end that the candidate has passed every test, the last
under bases that are the last answers taken. -/
theorem primegenGuarantee : Obligations.PrimegenGuarantee := by
  unfold Obligations.PrimegenGuarantee
  intro rd rs1 s t h hdone
  have hsrc1 := src1_accept_encode (i := .primegen rd rs1) rfl s
  obtain ⟨vs, hin, hsearched⟩ := searchedBy_of_exec_primegen h hdone
  obtain ⟨⟨hodd, hlen, hfilter⟩, hpred, pre, bases, rfl, hacc⟩ := hsearched.done hdone
  obtain ⟨hp, -, -, -, -, -, -, hpredctl, -, -, hctx, hpar, -⟩ := (movesTo_of_exec h).frame
  have hword : portWord t = (· % s.par.radix) := funext fun v => congrArg (v % Params.radix ·) hpar
  have hmeets : MeetsPredicate t (t.reg rd) := (pred_iff_meetsPredicate (by rw [hctx, hpredctl]; rfl) _).1 hpred
  rw [hctx, hpar] at hfilter
  rw [hctx, hword] at hacc
  refine ⟨hodd, hlen.trans (congrArg bitlen hsrc1), ?_, fun hon => trialDivPass_iff.1 (hfilter hon),
    pre, bases, hin, hacc⟩
  simp only [MeetsPredicate, hp, hpredctl] at hmeets
  exact hmeets

end Sys2Proof.Proofs

namespace Sys2Proof

theorem toNat_modeFn (mode : Mode) : (modeFn mode).toNat = mode.toNat := by
  rw [modeFn, toNat_append_eq_add]
  simp

end Sys2Proof

namespace Sys2Proof.Machine

/-! ## The scan and the factor test (R218, R219) -/

section
variable {p g : Nat}

/-- The loop looks at the next `k` powers, each the last one times `g` (R218). -/
theorem scanLoop_iff (k t : Nat) : scanLoop g p k t = true ↔ ∀ i, 1 ≤ i → i ≤ k → t * g ^ i % p ≠ 1 := by
  induction k generalizing t with
  | zero =>
    refine iff_of_true rfl fun i hpos hle => ?_
    omega
  | succ k ih =>
    have hpow (i : Nat) : t * g % p * g ^ i % p = t * g ^ (i + 1) % p := by
      rw [Nat.mod_mul_mod, mul_assoc, ← pow_succ']
    have hloop : scanLoop g p (k + 1) t = true ↔ t * g % p ≠ 1 ∧ scanLoop g p k (t * g % p) = true := by
      simp [scanLoop]
    rw [hloop, ih]
    constructor
    · rintro ⟨hfirst, hrest⟩ i hpos hle
      obtain ⟨i, rfl⟩ := Nat.exists_eq_succ_of_ne_zero (Nat.pos_iff_ne_zero.1 hpos)
      obtain rfl | hi := Nat.eq_zero_or_pos i
      · rwa [pow_one]
      · rw [← hpow]
        exact hrest i hi (by omega)
    · intro hall
      refine ⟨by simpa using hall 1 le_rfl (by omega), fun i hpos hle => ?_⟩
      rw [hpow]
      exact hall (i + 1) (by omega) (by omega)

theorem scanTest_iff : scanTest g p = true ↔ ∀ k, 1 ≤ k → k ≤ p - 2 → g ^ k % p ≠ 1 := by
  simp [scanTest, scanLoop_iff]

theorem factorTest_iff (hp : 0 < p) (fs : List Nat) :
    factorTest g p fs = true ↔ ∀ f ∈ fs, g ^ ((p - 1) / f) % p ≠ 1 := by
  simp [factorTest, powMod_eq_pow_mod hp]

end

/-! ## Generators modulo a prime (R221)

The factor test says that `g` has order `p - 1`, as soon as each prime factor of `p - 1` is listed; the scan says that
no lesser power is 1. -/

section
variable {p g : Nat} {fs : List Nat}

theorem natCast_pow_eq_one_iff (hp : 1 < p) (k : Nat) : (g : ZMod p) ^ k = 1 ↔ g ^ k % p = 1 := by
  have hcast := ZMod.natCast_eq_natCast_iff' (g ^ k) 1 p
  rwa [Nat.mod_eq_of_lt hp, Nat.cast_pow, Nat.cast_one] at hcast

theorem orderOf_eq_of_factorTest (hp : p.Prime) (hlo : 1 ≤ g) (hhi : g ≤ p - 1)
    (hall : ∀ q, q.Prime → q ∣ p - 1 → q ∈ fs) (htest : factorTest g p fs = true) :
    orderOf (g : ZMod p) = p - 1 := by
  have : Fact p.Prime := ⟨hp⟩
  have hne : (g : ZMod p) ≠ 0 := by
    rw [Ne, ZMod.natCast_eq_zero_iff]
    exact Nat.not_dvd_of_pos_of_lt hlo (by omega)
  refine orderOf_eq_of_pow_and_pow_div_prime (by omega) (ZMod.pow_card_sub_one_eq_one hne) fun q hq hdvd => ?_
  rw [Ne, natCast_pow_eq_one_iff hp.one_lt]
  exact (factorTest_iff hp.pos fs).1 htest q (hall q hq hdvd)

theorem scanTest_of_orderOf (hp : 1 < p) (h : orderOf (g : ZMod p) = p - 1) : scanTest g p = true := by
  refine scanTest_iff.2 fun k hpos hle => ?_
  rw [Ne, ← natCast_pow_eq_one_iff hp]
  exact pow_ne_one_of_lt_orderOf (by omega) (by omega)

/-- Each exponent of the factor test is one that the scan looks at. -/
theorem factorTest_of_scanTest (hp : 3 ≤ p) (hfs : ∀ f ∈ fs, 2 ≤ f ∧ f ∣ p - 1) (hscan : scanTest g p = true) :
    factorTest g p fs = true := by
  refine (factorTest_iff (by omega) fs).2 fun f hf => ?_
  obtain ⟨htwo, hdvd⟩ := hfs f hf
  have hpos : 0 < (p - 1) / f := Nat.div_pos (Nat.le_of_dvd (by omega) hdvd) (by omega)
  have hlt : (p - 1) / f < p - 1 := Nat.div_lt_self (by omega) htwo
  exact scanTest_iff.1 hscan _ hpos (by omega)

theorem factorTest_eq_scanTest (hp : p.Prime) (hlo : 2 ≤ g) (hhi : g ≤ p - 1) (hfs : ∀ f ∈ fs, 2 ≤ f ∧ f ∣ p - 1)
    (hall : ∀ q, q.Prime → q ∣ p - 1 → q ∈ fs) : factorTest g p fs = scanTest g p :=
  Bool.eq_iff_iff.2
    ⟨fun htest => scanTest_of_orderOf hp.one_lt (orderOf_eq_of_factorTest hp (by omega) hhi hall htest),
      factorTest_of_scanTest (by omega) hfs⟩

/-- The number below a safe prime has the prime factors 2 and its half, and no others (R220). -/
theorem mem_safe_factors_iff {q : Nat} (hodd : p % 2 = 1) (hhalf : ((p - 1) / 2).Prime) (hq : q.Prime) :
    q ∣ p - 1 ↔ q ∈ [2, (p - 1) / 2] := by
  have hdouble : p - 1 = 2 * ((p - 1) / 2) := by omega
  rw [hdouble, hq.dvd_mul, Nat.prime_dvd_prime_iff_eq hq Nat.prime_two, Nat.prime_dvd_prime_iff_eq hq hhalf]
  simp

end

/-! ## The factors in use (R24, R43, R217) -/

section
variable {s : State} {p : Nat}

/-- The factors the latched count takes, when it is the count in `FCNT`. -/
theorem forall_mem_factors_iff (h : s.ctx.fcnt = s.fcnt) {P : Nat → Prop} :
    (∀ f ∈ s.factors, P f) ↔ ∀ i : Fin 8, i.val < s.fcnt.toNat → P s.f[i] := by
  simp only [State.factors, h, List.forall_mem_iff_getElem, List.length_take, Vector.length_toList,
    List.getElem_take, Vector.getElem_toList, lt_min_iff]
  exact ⟨fun hall i hi => hall i ⟨hi, i.isLt⟩, fun hall i hi => hall ⟨i, hi.2⟩ hi.1⟩

theorem badFactor_iff (f : Nat) : (f < 2 ∨ (p - 1) % f ≠ 0) ↔ ¬ (2 ≤ f ∧ f ∣ p - 1) := by
  rw [not_and_or, Nat.not_le, Nat.dvd_iff_mod_eq_zero]

theorem badFactorFrom_eq_none {fs : List Nat} (h : ∀ f ∈ fs, 2 ≤ f ∧ f ∣ p - 1) (i : Nat) :
    badFactorFrom p i fs = none := by
  induction fs generalizing i with
  | nil => rfl
  | cons f fs ih =>
    obtain ⟨hf, htail⟩ := List.forall_mem_cons.1 h
    rw [badFactorFrom, if_neg (mt (badFactor_iff f).1 (not_not.2 hf)), ih htail]

/-- The first factor that is below 2 or no divisor is the one reported (R217). -/
theorem badFactorFrom_append_cons {good : List Nat} {bad : Nat} (hgood : ∀ f ∈ good, 2 ≤ f ∧ f ∣ p - 1)
    (hbad : ¬ (2 ≤ bad ∧ bad ∣ p - 1)) (i : Nat) (rest : List Nat) :
    badFactorFrom p i (good ++ bad :: rest) = some (i + good.length) := by
  induction good generalizing i with
  | nil => rw [List.nil_append, badFactorFrom, if_pos ((badFactor_iff bad).2 hbad)]; rfl
  | cons f good ih =>
    obtain ⟨hf, htail⟩ := List.forall_mem_cons.1 hgood
    rw [List.cons_append, badFactorFrom, if_neg (mt (badFactor_iff f).1 (not_not.2 hf)), ih htail, List.length_cons,
      Nat.add_assoc, Nat.add_comm 1]

/-- The factors split at one of them. -/
theorem factors_eq_append_cons (h : s.ctx.fcnt = s.fcnt) {i : Fin 8} (hi : i.val < s.fcnt.toNat) :
    ∃ rest, s.factors = s.f.toList.take i.val ++ s.f[i] :: rest := by
  have hlt : i.val < s.factors.length := by
    simp only [State.factors, h, List.length_take, Vector.length_toList]
    exact lt_min hi i.isLt
  refine ⟨s.factors.drop (i.val + 1), ?_⟩
  have hsplit := List.take_append_drop i.val s.factors
  rw [List.drop_eq_getElem_cons hlt] at hsplit
  have htake : s.factors.take i.val = s.f.toList.take i.val := by
    rw [State.factors, List.take_take, h, min_eq_left hi.le]
  have helem : s.factors[i.val] = s.f[i] := by simp [State.factors]
  rw [htake, helem] at hsplit
  exact hsplit.symm

end

/-! ## `CheckGroup` (R217) -/

section
variable {mode : Mode} {p : Nat} {s : State}

/-- The three legal modes (R98). -/
theorem Mode.eq_of_ne_reserved (h : mode ≠ Mode.reserved) :
    mode = Mode.scan ∨ mode = Mode.factors ∨ mode = Mode.safe := by
  revert mode
  decide

theorem checkGroup_of_lt_three (h : p < 3) : checkGroup mode p s = some .badGroupModulus := if_pos h

theorem checkGroup_factors (hp : 3 ≤ p) : checkGroup Mode.factors p s = checkFactors p s :=
  (if_neg (Nat.not_lt.2 hp)).trans (if_pos rfl)

theorem checkGroup_of_bad_safe (hp : 3 ≤ p) (h : p % 2 = 0 ∨ p < 5) :
    checkGroup Mode.safe p s = some .badSafeModulus :=
  ((if_neg (Nat.not_lt.2 hp)).trans (if_neg (by decide))).trans (if_pos ⟨rfl, h⟩)

theorem checkFactors_of_bad_count (h : s.ctx.fcnt.toNat = 0 ∨ 8 < s.ctx.fcnt.toNat) :
    checkFactors p s = some .badFactorCount := if_pos h

theorem checkFactors_of_count (hpos : 1 ≤ s.ctx.fcnt.toNat) (hle : s.ctx.fcnt.toNat ≤ 8) :
    checkFactors p s = (badFactorFrom p 0 s.factors).map .badFactor := if_neg (by omega)

theorem checkFactors_of_bad_factor (h : s.ctx.fcnt = s.fcnt) (hle : s.fcnt.toNat ≤ 8) {i : Fin 8}
    (hi : i.val < s.fcnt.toNat) (hbad : ¬ (2 ≤ s.f[i] ∧ s.f[i] ∣ p - 1))
    (hgood : ∀ j : Fin 8, j < i → 2 ≤ s.f[j] ∧ s.f[j] ∣ p - 1) :
    checkFactors p s = some (.badFactor i.val) := by
  have hbefore : ∀ f ∈ s.f.toList.take i.val, 2 ≤ f ∧ f ∣ p - 1 := by
    intro f hf
    obtain ⟨j, hj, rfl⟩ := List.mem_take_iff_getElem.1 hf
    have hlt : j < i.val := (lt_min_iff.1 hj).1
    exact hgood ⟨j, hlt.trans i.isLt⟩ hlt
  obtain ⟨rest, hfactors⟩ := factors_eq_append_cons h hi
  rw [checkFactors_of_count (by rw [h]; omega) (by rwa [h]), hfactors, badFactorFrom_append_cons hbefore hbad]
  simp [i.isLt.le]

theorem checkGroup_of_accepted (h : s.ctx.fcnt = s.fcnt) (hgroup : GroupAccepted mode p s) :
    checkGroup mode p s = none := by
  obtain ⟨hp, hlegal, hfactors, hsafe⟩ := hgroup
  obtain rfl | rfl | rfl := Mode.eq_of_ne_reserved hlegal
  · exact (if_neg (Nat.not_lt.2 hp)).trans ((if_neg (by decide)).trans (if_neg fun hmode => absurd hmode.1 (by decide)))
  · obtain ⟨hpos, hle, hall⟩ := hfactors rfl
    rw [checkGroup_factors hp, checkFactors_of_count (by rwa [h]) (by rwa [h]),
      badFactorFrom_eq_none ((forall_mem_factors_iff h).2 hall)]
    rfl
  · obtain ⟨hodd, hfive⟩ := hsafe rfl
    exact (if_neg (Nat.not_lt.2 hp)).trans ((if_neg (by decide)).trans (if_neg (by omega)))

end

/-! ## `IsGen` (R217 to R220, R223) -/

section
variable {mode : Mode} {p g : Nat} {s : State}

theorem GroupAccepted.ne_reserved (h : GroupAccepted mode p s) : mode ≠ Mode.reserved := by
  obtain ⟨-, hlegal, -⟩ := h
  exact hlegal

/-- A generator is in the range that candidates are drawn from (R223, R224). -/
theorem PassesGenTest.bounds (h : PassesGenTest mode g p s) : 2 ≤ g ∧ g ≤ p - 1 := by
  obtain ⟨hlo, hhi, -⟩ := h
  exact ⟨hlo, hhi⟩

/-- The test of each mode is its formula. -/
theorem groupTest_iff (h : s.ctx.fcnt = s.fcnt) (hgroup : GroupAccepted mode p s) :
    groupTest mode g p s = true ↔
      (mode = 0#2 → ∀ k, 1 ≤ k → k ≤ p - 2 → g ^ k % p ≠ 1) ∧
      (mode = 1#2 → ∀ i : Fin 8, i.val < s.fcnt.toNat → g ^ ((p - 1) / s.f[i]) % p ≠ 1) ∧
      (mode = 2#2 → g ^ ((p - 1) / 2) % p ≠ 1 ∧ g ^ 2 % p ≠ 1) := by
  obtain ⟨hp, hlegal, -, hsafe⟩ := hgroup
  have hpos : 0 < p := by omega
  obtain rfl | rfl | rfl := Mode.eq_of_ne_reserved hlegal
  · have hscan : groupTest Mode.scan g p s = scanTest g p := if_pos rfl
    rw [hscan, scanTest_iff]
    simp [Mode.scan]
  · have hfactors : groupTest Mode.factors g p s = factorTest g p s.factors := (if_neg (by decide)).trans (if_pos rfl)
    rw [hfactors, factorTest_iff hpos, forall_mem_factors_iff h]
    simp [Mode.factors]
  · have hpair : groupTest Mode.safe g p s = factorTest g p [2, (p - 1) / 2] :=
      (if_neg (by decide)).trans (if_neg (by decide))
    obtain ⟨hodd, hfive⟩ := hsafe rfl
    have htwo : (p - 1) / ((p - 1) / 2) = 2 := Nat.div_eq_of_eq_mul_left (by omega) (by omega)
    rw [hpair, factorTest_iff hpos]
    simp [Mode.safe, htwo]

theorem isGen_iff (h : s.ctx.fcnt = s.fcnt) (hgroup : GroupAccepted mode p s) :
    isGen mode g p s = true ↔ PassesGenTest mode g p s := by
  rw [PassesGenTest, ← groupTest_iff h hgroup, isGen, ← and_assoc]
  split_ifs with hout
  · rw [false_iff]
    omega
  · rw [and_iff_right (by omega)]

end

/-! ## The commands of unit 6 up to their first draw (R98, R216, R224) -/

section
variable {mode : Mode} {rd rs1 rs3 : Reg} {s : State}

theorem exec_isgen_of_reserved :
    exec (.isgen Mode.reserved rs1 rs3) s = .next (raise (.illegalCommand .reservedMode) s) := rfl

theorem exec_isgen_of_legal (h : mode ≠ Mode.reserved) : exec (.isgen mode rs1 rs3) s = .next (isgenRun mode s) :=
  congrArg Host.Outcome.next (if_neg h)

theorem exec_isgen_of_refused (h : mode ≠ Mode.reserved) {cause : ParamCause}
    (hcheck : checkGroup mode s.src3 s = some cause) :
    exec (.isgen mode rs1 rs3) s = .next (raiseParam cause s) := by
  rw [exec_isgen_of_legal h, isgenRun, hcheck]

theorem exec_isgen_of_accepted (h : s.ctx.fcnt = s.fcnt) (hgroup : GroupAccepted mode s.src3 s) :
    exec (.isgen mode rs1 rs3) s = .next (finishBool (isGen mode s.src1 s.src3 s) s) := by
  rw [exec_isgen_of_legal hgroup.ne_reserved, isgenRun, checkGroup_of_accepted h hgroup]

theorem exec_genfind_of_reserved :
    exec (.genfind Mode.reserved rd rs3) s = .next (raise (.illegalCommand .reservedMode) s) := rfl

theorem exec_genfind_of_legal (h : mode ≠ Mode.reserved) :
    exec (.genfind mode rd rs3) s = .next (serve (genfindStart mode rd s) s.inputs) :=
  congrArg Host.Outcome.next (if_neg h)

theorem exec_genfind_of_refused (h : mode ≠ Mode.reserved) {cause : ParamCause}
    (hcheck : checkGroup mode s.src3 s = some cause) :
    exec (.genfind mode rd rs3) s = .next (raiseParam cause s) := by
  rw [exec_genfind_of_legal h, genfindStart, hcheck, serve_raiseParam]
  rfl

theorem exec_genfind_of_accepted (h : s.ctx.fcnt = s.fcnt) (hgroup : GroupAccepted mode s.src3 s) :
    exec (.genfind mode rd rs3) s = .next (serve (genfindAttempt mode rd s.src3 s) s.inputs) := by
  rw [exec_genfind_of_legal hgroup.ne_reserved, genfindStart, checkGroup_of_accepted h hgroup]

end

/-! ## The search for a generator with its draws answered (R224, R225) -/

/-- What a search for a generator modulo `p` runs with: the count of factors as it was latched (R47), a group that
`CheckGroup` accepts, and a modulus the port can carry. -/
structure State.SearchesGroup (mode : Mode) (p : Nat) (s : State) : Prop where
  fcnt : s.ctx.fcnt = s.fcnt
  accepted : GroupAccepted mode p s
  lt_radix : p < s.par.radix

theorem State.SearchesGroup.with_attempts {mode : Mode} {p : Nat} {s : State} (h : s.SearchesGroup mode p) (n : Word) :
    ({ s with attempts := n } : State).SearchesGroup mode p :=
  { h with }

theorem State.SearchesGroup.countAttempt {mode : Mode} {p : Nat} {s : State} (h : s.SearchesGroup mode p) :
    (countAttempt s).SearchesGroup mode p :=
  { h with }

section
variable {mode : Mode} {rd rs3 : Reg} {p g : Nat} {s : State} {rej gs : List Nat} {rest : List Input}

theorem genfindAttempt_of_lt (h : s.attempts.toNat < s.ctx.limit.toNat) :
    genfindAttempt mode rd p s = placeDraw (.genfind mode rd p) (countAttempt s) := if_pos h

theorem genfindAttempt_of_limit_le (h : s.ctx.limit.toNat ≤ s.attempts.toNat) :
    genfindAttempt mode rd p s = raise (.generatorSearchExhausted s.attempts) s := if_neg (Nat.not_lt.2 h)

/-- GENFIND at its draw takes a candidate in the range it asked for. -/
theorem serve_genfind (hp : p < s.par.radix) (hlo : 2 ≤ g) (hhi : g ≤ p - 1) :
    serve (placeDraw (.genfind mode rd p) s) (answersThen (g :: gs) rest) =
      serve (genfindTry mode rd p g s) (answersThen gs rest) := by
  have hword : portWord s g = g := portWord_of_lt (by omega)
  have htry : genfindAnswer mode rd p (portWord s g) s = genfindTry mode rd p g s := by
    rw [hword]
    exact if_pos ⟨hlo, hhi⟩
  rw [← htry]
  exact serve_answer (placeDraw_engine ..) g _

theorem genfindTry_of_passes (h : s.SearchesGroup mode p) (hg : PassesGenTest mode g p s) :
    genfindTry mode rd p g s = finishValue rd g s := if_pos ((isGen_iff h.fcnt h.accepted).2 hg)

theorem genfindTry_of_fails (h : s.SearchesGroup mode p) (hg : ¬ PassesGenTest mode g p s) :
    genfindTry mode rd p g s = genfindAttempt mode rd p s := if_neg (mt (isGen_iff h.fcnt h.accepted).1 hg)

/-- Rejected candidates within `LIMIT` bring the search to the attempt after them, each of them counted. -/
theorem serve_genfindAttempt_of_rejected (h : s.SearchesGroup mode p)
    (hrej : ∀ c ∈ rej, 2 ≤ c ∧ c ≤ p - 1 ∧ ¬ PassesGenTest mode c p s)
    (hlimit : s.attempts.toNat + rej.length ≤ s.ctx.limit.toNat) (l : List Input) :
    serve (genfindAttempt mode rd p s) (answersThen rej l) =
      serve (genfindAttempt mode rd p (countAttempt^[rej.length] s)) l := by
  induction rej generalizing s with
  | nil => rfl
  | cons c rej ih =>
    obtain ⟨⟨hlo, hhi, hfails⟩, htail⟩ := List.forall_mem_cons.1 hrej
    rw [List.length_cons] at hlimit
    have hlt : s.attempts.toNat < s.ctx.limit.toNat := by omega
    have hcount : (countAttempt s).attempts.toNat = s.attempts.toNat + 1 := toNat_add_one_of_lt hlt s.ctx.limit.isLt
    rw [genfindAttempt_of_lt hlt, serve_genfind h.countAttempt.lt_radix hlo hhi,
      genfindTry_of_fails h.countAttempt hfails, ih h.countAttempt htail (by rw [hcount, countAttempt_ctx]; omega)]
    rfl

theorem searchesGroup_accept (hgroup : GroupAccepted mode p s) (hp : p < s.par.radix) (cw : Word) :
    (accept cw s).SearchesGroup mode p :=
  ⟨rfl, hgroup, hp⟩

/-- GENFIND after rejected candidates within `LIMIT`: all of them are counted, and the next is to be drawn. -/
theorem exec_genfind_of_rejected (hgroup : GroupAccepted mode (s.reg rs3) s) (hp : s.reg rs3 < s.par.radix)
    (hrej : ∀ c ∈ rej, 2 ≤ c ∧ c ≤ s.reg rs3 - 1 ∧ ¬ PassesGenTest mode c (s.reg rs3) s)
    (hlimit : rej.length ≤ s.limit.toNat) (hin : s.inputs = answersThen rej rest) :
    exec (.genfind mode rd rs3) (accept (encode (.genfind mode rd rs3)) s) = .next
      (serve (genfindAttempt mode rd (s.reg rs3)
        { accept (encode (.genfind mode rd rs3)) s with attempts := BitVec.ofNat 32 rej.length }) rest) := by
  have hsrc3 := src3_accept_encode (i := .genfind mode rd rs3) rfl s
  have hsearch := searchesGroup_accept hgroup hp (encode (.genfind mode rd rs3))
  have hbudget : (accept (encode (.genfind mode rd rs3)) s).attempts.toNat + rej.length ≤
      (accept (encode (.genfind mode rd rs3)) s).ctx.limit.toNat := by simpa using hlimit
  rw [exec_genfind_of_accepted hsearch.fcnt (by rw [hsrc3]; exact hsearch.accepted), hsrc3, accept_inputs, hin,
    serve_genfindAttempt_of_rejected hsearch hrej hbudget, iterate_countAttempt, accept_attempts, BitVec.zero_add]

end

end Sys2Proof.Machine

namespace Sys2Proof.Proofs

open Sys2Proof.Machine

/-- Settles O28: the group is accepted, so the Boolean is the test of the mode on the latched sources, which is the
formula of the mode. -/
theorem isgenResult : Obligations.IsgenResult := by
  unfold Obligations.IsgenResult
  intro mode rs1 rs3 s
  have hsrc1 := src1_accept_encode (i := .isgen mode rs1 rs3) rfl s
  have hsrc3 := src3_accept_encode (i := .isgen mode rs1 rs3) rfl s
  refine ⟨by simp [encode, toNat_formatC, toNat_modeFn], fun hgroup => ?_⟩
  refine ⟨isGen mode (s.reg rs1) (s.reg rs3) (accept (encode (.isgen mode rs1 rs3)) s), isGen_iff rfl hgroup, ?_⟩
  rw [exec_isgen_of_accepted (s := accept (encode (.isgen mode rs1 rs3)) s) rfl (by rw [hsrc3]; exact hgroup), hsrc1,
    hsrc3]
  rfl

/-- Settles O32: the factor test fixes the order of `g` modulo the prime, which no lesser power reaches. -/
theorem factorTestAgreesWithScan : Obligations.FactorTestAgreesWithScan := by
  unfold Obligations.FactorTestAgreesWithScan
  refine ⟨fun p g fs hp hlo hhi hfs hall => factorTest_eq_scanTest hp hlo hhi hfs hall,
    fun p g hp hfive hhalf hlo hhi => ?_⟩
  have hodd : p % 2 = 1 := hp.eq_two_or_odd.resolve_left (by omega)
  have hfactors {q : Nat} (hq : q.Prime) : q ∣ p - 1 ↔ q ∈ [2, (p - 1) / 2] := mem_safe_factors_iff hodd hhalf hq
  have hprime : ∀ f ∈ [2, (p - 1) / 2], f.Prime := by simp [Nat.prime_two, hhalf]
  exact factorTest_eq_scanTest hp hlo hhi
    (fun f hf => ⟨(hprime f hf).two_le, (hfactors (hprime f hf)).2 hf⟩) fun q hq => (hfactors hq).1

/-- Settles O30: each rejected candidate leads to the next attempt, and the accepted one ends the search. -/
theorem genfindFindsGenerator : Obligations.GenfindFindsGenerator := by
  unfold Obligations.GenfindFindsGenerator
  intro mode rd rs3 s
  refine ⟨by simp [encode, toNat_formatC, toNat_modeFn],
    fun rej g rest hgroup hp hrej hlimit hg hin => ?_⟩
  rw [answersThen_append] at hin
  have hsearch := searchesGroup_accept hgroup hp (encode (.genfind mode rd rs3))
  have hnext := (hsearch.with_attempts (BitVec.ofNat 32 rej.length)).countAttempt
  have hcount : (BitVec.ofNat 32 rej.length).toNat = rej.length :=
    Nat.mod_eq_of_lt (hlimit.trans s.limit.isLt)
  obtain ⟨hlo, hhi⟩ := hg.bounds
  rw [exec_genfind_of_rejected hgroup hp hrej hlimit.le hin, genfindAttempt_of_lt (hcount.trans_lt hlimit),
    serve_genfind hnext.lt_radix hlo hhi, genfindTry_of_passes hnext hg, serve_finishValue, BitVec.ofNat_add]
  rfl

/-- Settles O31: `LIMIT` rejected candidates are counted, and no other is drawn. -/
theorem genfindExhausted : Obligations.GenfindExhausted := by
  unfold Obligations.GenfindExhausted
  intro mode rd rs3 s rej rest hgroup hp hrej hlimit hin
  have hcount : BitVec.ofNat 32 rej.length = s.limit := by rw [hlimit, BitVec.ofNat_toNat, BitVec.setWidth_eq]
  rw [exec_genfind_of_rejected hgroup hp hrej hlimit.le hin, hcount, genfindAttempt_of_limit_le le_rfl, serve_raise]
  rfl

/-- Settles O29: each clause is a check that finds its cause, all the checks before it having passed; both commands end
in the fault of the cause found. -/
theorem groupParameterFaults : Obligations.GroupParameterFaults := by
  unfold Obligations.GroupParameterFaults
  rintro mode r rs3 s n code (⟨rfl, rfl, rfl⟩ | ⟨hlegal, rfl, hcause⟩)
  · exact ⟨exec_isgen_of_reserved, exec_genfind_of_reserved⟩
  have hcheck (cw : Word) : ∃ cause, checkGroup mode (s.reg rs3) (accept cw s) = some cause ∧ cause.info = n := by
    obtain ⟨hlt, rfl⟩ | ⟨hp, rfl, hcount, rfl⟩ | ⟨hp, rfl, hle, i, hi, hbad, hgood, rfl⟩ |
      ⟨hp, rfl, hsafe, rfl⟩ := hcause
    · exact ⟨_, checkGroup_of_lt_three hlt, rfl⟩
    · exact ⟨_, (checkGroup_factors hp).trans (checkFactors_of_bad_count hcount), rfl⟩
    · rw [← Nat.not_le, ← not_and_or] at hbad
      have hfound := checkFactors_of_bad_factor (s := accept cw s) rfl hle hi hbad hgood
      exact ⟨_, (checkGroup_factors hp).trans hfound, rfl⟩
    · exact ⟨_, checkGroup_of_bad_safe hp hsafe, rfl⟩
  have hisgen := src3_accept_encode (i := .isgen mode r rs3) rfl s
  have hgenfind := src3_accept_encode (i := .genfind mode r rs3) rfl s
  constructor
  · obtain ⟨cause, hfound, rfl⟩ := hcheck (encode (.isgen mode r rs3))
    rw [exec_isgen_of_refused hlegal (by rwa [hisgen])]
    rfl
  · obtain ⟨cause, hfound, rfl⟩ := hcheck (encode (.genfind mode r rs3))
    rw [exec_genfind_of_refused hlegal (by rwa [hgenfind])]
    rfl

end Sys2Proof.Proofs

namespace Sys2Proof.Machine

/-! ## Faulting ends and ends in the cycle of an access (R245, R247, R248, R253) -/

section
variable {s t u : State}

/-! An answer outside the range asked for (R79, R245). -/

theorem rangeAnswer_of_outside {lo hi v : Nat} (h : v < lo ∨ hi < v) (s use : State) :
    rangeAnswer lo hi v s use = raise .entropyRange s :=
  if_neg (by omega)

/-- Whichever command asked for the range, it makes no use of a word outside it. -/
theorem resume_of_outside {w : Wait} {lo hi v : Nat} (hreq : w.request = .range lo hi) (h : v < lo ∨ hi < v)
    (s : State) : resume w v s = raise .entropyRange s := by
  cases w with
  | randodd rd len | primegenCandidate rd len => cases hreq
  | mrtest n left | primegenBase rd len c left | genfind mode rd p => cases hreq; exact rangeAnswer_of_outside h ..

/-- After the fault no further answer is taken. -/
theorem takeAnswer_of_outside {w : Wait} {lo hi v : Nat} (hw : s.engine = .waiting w) (hreq : w.request = .range lo hi)
    (h : portWord s v < lo ∨ hi < portWord s v) : takeAnswer v s = raise .entropyRange s := by
  rw [takeAnswer_of_waiting hw, resume_of_outside hreq h, serve_raise]
  rfl

/-- The destination and `BOOL` are written by a successful end alone (R247, R248). -/
theorem MovesTo.unwritten_of_fault {rd? : Option Reg} (h : MovesTo rd? s t) (ht : t.engine = .fault) :
    t.x = s.x ∧ t.boolFlag = s.boolFlag := by
  obtain ⟨n, ⟨rd, v, hrd, rfl⟩ | ⟨b, hrd, rfl⟩ | ⟨flt, rfl⟩ | ⟨w, hw, rfl⟩⟩ := h
  · cases ht
  · cases ht
  · exact ⟨rfl, rfl⟩
  · cases ht

/-! The engine's move in the cycle of an access (R253). -/

theorem runCommand_movesTo (h : runCommand s = .next t) : ∃ rd?, MovesTo rd? { s with inputs := t.inputs } t := by
  unfold runCommand at h
  split at h
  next i _ => exact ⟨i.rd?, movesTo_of_exec h⟩
  next why _ => cases h; exact ⟨none, movesTo_raise ..⟩

/-- The engine stands still or makes one move of its command, but for the inputs used up. -/
theorem State.EngineMoves.eq_or_movesTo (h : s.EngineMoves t) :
    t = s ∨ ∃ rd?, MovesTo rd? { s with inputs := t.inputs } t := by
  obtain htick | ⟨v, rfl⟩ := h
  · by_cases hacc : s.engine = .accepted
    · exact .inr (runCommand_movesTo (tick_of_accepted hacc ▸ htick))
    · rw [tick_of_not_accepted hacc] at htick
      cases htick
      exact .inl rfl
  · by_cases hw : ∃ w, s.engine = .waiting w
    · obtain ⟨w, hw⟩ := hw
      exact .inr ⟨w.rd?, movesTo_takeAnswer hw v⟩
    · exact .inl (takeAnswer_of_not_waiting (fun w he => hw ⟨w, he⟩) v)

/-- The end of a running command sets its own pending bit and keeps the other (R45, R246, R247). -/
theorem State.EngineMoves.pending (h : s.EngineMoves t) (hb : s.busy = true) :
    (t.engine = .done → t.irqStat = s.irqStat ||| donePending) ∧
      (t.engine = .fault → t.irqStat = s.irqStat ||| faultPending) := by
  obtain rfl | ⟨rd?, hmove⟩ := h.eq_or_movesTo
  · constructor <;> intro he <;> simp [State.busy, he, Engine.busy] at hb
  · obtain ⟨he, hirq⟩ | ⟨he, hirq⟩ | ⟨w, he, -⟩ := hmove.stops
    · exact ⟨fun _ => hirq, fun hf => by simp [he] at hf⟩
    · exact ⟨fun hd => by simp [he] at hd, fun _ => hirq⟩
    · exact ⟨fun hd => by simp [he] at hd, fun hf => by simp [he] at hf⟩

/-- After an access that leaves no command running there is no move to make. -/
theorem accessWithStep_of_not_busy {a : Access} (h : busAccess a s = .next u) (hu : u.busy = false)
    (ans : Option Nat) : accessWithStep a ans s = .next u := by
  unfold accessWithStep
  rw [h]
  cases ans with
  | none => exact tick_of_not_accepted (engine_ne_accepted_of_not_busy hu)
  | some v => exact congrArg Host.Outcome.next (takeAnswer_of_not_waiting (engine_ne_waiting_of_not_busy hu) v)

theorem writeCtrl_of_srst {d : Word} (h : d.getLsbD 31 = true) (s : State) : writeCtrl d s = resetAll s := if_pos h

end

end Sys2Proof.Machine

namespace Sys2Proof.Proofs

open Sys2Proof.Machine

/-- Settles O33: the command that asked for the range makes no use of the answer but raises
`EntropyRange`. -/
theorem answerOutsideRangeFaults : Obligations.AnswerOutsideRangeFaults := by
  unfold Obligations.AnswerOutsideRangeFaults
  intro s w lo hi v rest hw hreq hout hin
  rw [step_of_input hin]
  exact congrArg Host.Outcome.next (takeAnswer_of_outside (s := { s with inputs := rest }) hw hreq hout)

/-- Settles O50: the access comes first, so the end sets its pending bit after the clear, and after the soft reset there
is no command to end. -/
theorem simultaneousEvents : Obligations.SimultaneousEvents := by
  unfold Obligations.SimultaneousEvents
  intro s d ans rest hr hb
  refine ⟨fun t hin ht => ?_, fun hsrst hin => ?_⟩
  · rw [step_of_input hin] at ht
    have hclear := busAccess_memWrite_csr (s := { s with inputs := rest }) (c := .irqStat) (d := d) hr rfl
    obtain ⟨u, hu, hmove⟩ := accessWithStep_cases ht
    cases hclear.symm.trans hu
    exact hmove.pending hb
  · rw [step_of_input hin]
    have hreset := busAccess_memWrite_csr (s := { s with inputs := rest }) (c := .ctrl) hr
      (congrArg some (writeCtrl_of_srst hsrst _))
    exact accessWithStep_of_not_busy hreset rfl ans

/-- Settles O56: a run of the engine is one move, and a move that ends in FAULT writes neither its destination nor
`BOOL`. -/
theorem faultingEndIsPrecise : Obligations.FaultingEndIsPrecise := by
  unfold Obligations.FaultingEndIsPrecise
  intro s t h hfault
  have hmove : ∃ rd?, MovesTo rd? { s with inputs := t.inputs } t := by
    obtain ⟨i, hexec⟩ | ⟨⟨w, hw⟩, v, rfl⟩ := h
    · exact ⟨i.rd?, movesTo_of_exec hexec⟩
    · exact ⟨w.rd?, movesTo_takeAnswer hw v⟩
  obtain ⟨rd?, hmove⟩ := hmove
  obtain ⟨hx, hbool⟩ := hmove.unwritten_of_fault hfault
  obtain ⟨hp, hf, hsieve, hcmd, hrounds, hlimit, hbits, hpred, hfcnt, hirq, -⟩ := hmove.frame
  exact ⟨hx, hp, hf, hrounds, hlimit, hbits, hpred, hfcnt, hirq, hsieve, hbool, hcmd⟩

end Sys2Proof.Proofs

namespace Sys2Proof.Machine

/-! ## Reset (R280, R281) and where a step has no next state (R290, U8) -/

section
variable {s t : State} {a : Access} {c : Csr} {d : Word} {tgt : Target}

/-- `SRST` reads 0 always (R281). -/
theorem getLsbD_srst_csrRead_ctrl (s : State) : (csrRead .ctrl s).getLsbD 31 = false := by
  rw [csrRead_ctrl, BitVec.getLsbD_setWidth, BitVec.getLsbD_of_ge _ _ (by omega), Bool.and_false]

/-- With `SIEVE_EN` 0 all of `CTRL` reads 0 (R33). -/
theorem busAccess_memRead_ctrl_of_sieve_off (hr : s.rstLow = false) (h : s.sieveEn = false) :
    busAccess (memRead 0x008) s = .next { s with resp := some (.data 0#32) } := by
  have hzero : csrRead .ctrl s = 0#32 := by rw [csrRead_ctrl, h]; rfl
  rw [← hzero]
  exact busAccess_memRead_csr hr .ctrl

theorem busAccess_of_held (h : s.rstLow = true) (a : Access) : busAccess a s = .refused .accessDuringReset :=
  if_pos h

/-! A step of a block that is held in reset (R280, U8). -/

theorem step_access_of_held {rest : List Input} (h : s.rstLow = true) (hin : s.inputs = .access a :: rest) :
    step s = .refused .accessDuringReset := by
  rw [step_of_input hin]
  exact busAccess_of_held (s := { s with inputs := rest }) h a

theorem step_tick_of_idle {rest : List Input} (h : s.engine = .idle) (hin : s.inputs = .tick :: rest) :
    step s = .next { s with inputs := rest } := by
  rw [step_of_input hin]
  exact tick_of_not_accepted (s := { s with inputs := rest }) (by simp [h])

theorem step_release_of_held {rest : List Input} (h : s.rstLow = true) (hin : s.inputs = .rstN true :: rest) :
    step s = .next { resetAll s with inputs := rest } := by
  rw [step_of_input hin]
  exact congrArg Host.Outcome.next (if_pos h)

/-! The parameters are fixed: no write, no move of the engine and no reset changes them (R283). -/

theorem par_of_csrWrite (hw : csrWrite c d s = some t) : t.par = s.par := by
  cases c with
  | id | param | status | err | errInfo | attempts => cases hw
  | ctrl =>
    cases hw
    unfold writeCtrl
    split_ifs
    · exact resetAll_par s
    · rfl
  | cmd =>
    obtain ⟨-, ⟨⟩⟩ := Option.ite_none_left_eq_some.1 hw
    exact accept_par d s
  | rounds | limit | bits | predctl | fcnt | irqEn | irqStat => cases hw; rfl

theorem par_of_targetWrite (hw : targetWrite tgt d s = some t) : t.par = s.par := by
  cases tgt with
  | csr c => exact par_of_csrWrite hw
  | x i j | p k j | f k j =>
    obtain ⟨-, ⟨⟩⟩ := Option.ite_none_left_eq_some.1 hw
    rfl

theorem par_busRead (a : Access) (s : State) : (busRead a s).par = s.par := by
  obtain ⟨d, hd⟩ | he := busRead_cases a s
  · rw [hd]
  · rw [he]

theorem par_busWrite (a : Access) (d : Word) (s : State) : (busWrite a d s).par = s.par := by
  obtain ⟨tgt, t, -, ht, hw⟩ | he := busWrite_cases a d s
  · rw [hw]; exact (par_of_targetWrite ht :)
  · rw [he]

theorem State.EngineMoves.par (h : s.EngineMoves t) : t.par = s.par := by
  obtain rfl | ⟨rd?, hmove⟩ := h.eq_or_movesTo
  · rfl
  · obtain ⟨-, -, -, -, -, -, -, -, -, -, -, hpar, -⟩ := hmove.frame
    exact hpar

theorem par_driveResetPin (level : Bool) (s : State) : (driveResetPin level s).par = s.par := by
  obtain hsame | hreset := driveResetPin_cases level s
  · rw [hsame]
  · rw [hreset]; exact resetAll_par s

/-! The engine's move always has a next state; an access has one unless the block is held in reset. -/

theorem exists_tick (s : State) : ∃ t, tick s = .next t := by
  by_cases hacc : s.engine = .accepted
  · rw [tick_of_accepted hacc, runCommand]
    split
    next i _ => exact ⟨_, exec_eq_serve i s⟩
    next why _ => exact ⟨_, rfl⟩
  · exact ⟨s, tick_of_not_accepted hacc⟩

/-- `o` is a next state with the parameters of `s`. -/
def GoesOn (s : State) (o : Host.Outcome State Fault Refusal) : Prop := ∃ t, o = .next t ∧ t.par = s.par

theorem goesOn_tick (s : State) : GoesOn s (tick s) := by
  obtain ⟨t, ht⟩ := exists_tick s
  exact ⟨t, ht, State.EngineMoves.par (.inl ht)⟩

theorem goesOn_takeAnswer (v : Nat) (s : State) : GoesOn s (.next (takeAnswer v s)) :=
  ⟨_, rfl, State.EngineMoves.par (.inr ⟨v, rfl⟩)⟩

theorem goesOn_busAccess (hr : s.rstLow = false) (a : Access) : GoesOn s (busAccess a s) := by
  obtain ⟨hheld, -⟩ | ⟨-, -, hread⟩ | ⟨-, d, -, hwrite⟩ := busAccess_cases a s
  · simp [hr] at hheld
  · exact ⟨_, hread, par_busRead a s⟩
  · exact ⟨_, hwrite, par_busWrite a d s⟩

theorem goesOn_accessWithStep (hr : s.rstLow = false) (a : Access) (ans : Option Nat) :
    GoesOn s (accessWithStep a ans s) := by
  obtain ⟨u, hu, hpar⟩ := goesOn_busAccess hr a
  rw [accessWithStep, hu, GoesOn, ← hpar]
  cases ans with
  | none => exact goesOn_tick u
  | some v => exact goesOn_takeAnswer v u

/-- An input has a next state, or it is an access to a block held in reset (R280, R290, U8). -/
theorem handle_goesOn_or_refused (inp : Input) (s : State) :
    GoesOn s (handle inp s) ∨
      (handle inp s = .refused .accessDuringReset ∧ s.rstLow = true ∧
        ∃ a, inp = .access a ∨ ∃ ans, inp = .sameCycle a ans) := by
  cases inp with
  | tick => exact .inl (goesOn_tick s)
  | answer v => exact .inl (goesOn_takeAnswer v s)
  | lateAnswer v => exact .inl ⟨s, rfl, rfl⟩
  | rstN level => exact .inl ⟨_, rfl, par_driveResetPin level s⟩
  | access a =>
    cases hr : s.rstLow with
    | false => exact .inl (goesOn_busAccess hr a)
    | true => exact .inr ⟨busAccess_of_held hr a, rfl, a, .inl rfl⟩
  | sameCycle a ans =>
    cases hr : s.rstLow with
    | false => exact .inl (goesOn_accessWithStep hr a ans)
    | true => exact .inr ⟨by simp [handle, accessWithStep, busAccess_of_held hr], rfl, a, .inr ⟨ans, rfl⟩⟩

end

end Sys2Proof.Machine

namespace Sys2Proof.Proofs

open Sys2Proof.Machine

/-- Settles O47: the write reaches `CTRL`, which resets the block whatever its other bits. -/
theorem softResetResetsEverything : Obligations.SoftResetResetsEverything := by
  unfold Obligations.SoftResetResetsEverything
  intro s d rest hr hsrst hin
  have hwrite := busAccess_memWrite_csr (s := { s with inputs := rest }) (c := .ctrl) hr
    (congrArg some (writeCtrl_of_srst hsrst _))
  refine ⟨_, (step_of_input hin).trans hwrite, rfl, busAccess_memRead_ctrl_of_sieve_off rfl rfl, fun u hu => ?_⟩
  exact ⟨_, busAccess_memRead_csr hu .ctrl, getLsbD_srst_csrRead_ctrl u⟩

/-- Settles O48: the pin driven low resets and holds; held, the engine is idle and an access is refused. -/
theorem resetInputHoldsResetState : Obligations.ResetInputHoldsResetState := by
  unfold Obligations.ResetInputHoldsResetState
  intro s rest hin
  exact ⟨_, step_of_input hin, rfl, fun a rest' => step_access_of_held rfl rfl, fun rest' => step_tick_of_idle rfl rfl,
    fun rest' => step_release_of_held rfl rfl⟩

/-- Settles O60: with no input the engine moves; an input goes on or is an access during reset. -/
theorem stepStopsOnlyDuringReset : Obligations.StepStopsOnlyDuringReset := by
  unfold Obligations.StepStopsOnlyDuringReset
  intro s
  cases hin : s.inputs with
  | nil =>
    rw [step_of_no_input hin]
    exact .inl (goesOn_tick s)
  | cons inp rest =>
    rw [step_of_input hin]
    obtain hnext | ⟨hrefused, hr, a, ha⟩ := handle_goesOn_or_refused inp { s with inputs := rest }
    · exact .inl hnext
    · obtain rfl | ⟨ans, rfl⟩ := ha
      · exact .inr ⟨hrefused, hr, a, rest, .inl rfl⟩
      · exact .inr ⟨hrefused, hr, a, rest, .inr ⟨ans, rfl⟩⟩

end Sys2Proof.Proofs
